-- ==== Sys2Proof/Word.lean ====
section
/-! DEFINITION. The words and the numbered things of the part: bytes and 16-bit fields of the frames (R173), part-clock
values (R169), and the numbers that name contexts, heads, channels and slots (R1, R44, R23, R128). -/

namespace Sys2Proof

/-- One byte of a frame (R173, R174). -/
abbrev Byte := BitVec 8

/-- A field of two bytes: a tag, a context number, a position (R173). -/
abbrev Half := BitVec 16

/-- A value of the 32-bit part clock: every deadline and every stored time is one (R169). -/
abbrev Time := BitVec 32

/-- A permanent identity: any 64-bit value (R9). -/
abbrev Identity := BitVec 64

/-- A context number, 0 to 2047 (R1). -/
abbrev CtxNum := Fin 2048

/-- A head number, 0 to 15 (R44). -/
abbrev HeadNum := Fin 16

/-- A control channel, 0 to 3 (R23). -/
abbrev ChanNum := Fin 4

/-- A slot of a plan, 0 to 31 (R128). -/
abbrev SlotNum := Fin 32

end Sys2Proof
end

