-- ==== Sys2Proof/Config.lean ====
section
/-! DEFINITION. What is fixed for the part: the constants the spec writes out, and the values it leaves open. -/

namespace Sys2Proof.Config

/-- R46: a frame that counts as presence sets the silence deadline to now + 30 ms. -/
def silenceMs : Nat := 30

/-- R47: the settle time of a link that has begun to carry frames. -/
def settleMs : Nat := 100

/-- R11: at most 64 CRANE contexts are non-FREE at once. -/
def craneCap : Nat := 64

/-- R42: a block of a sweep closes when it holds 16 entries. -/
def blockSize : Nat := 16

/-- R86: a measurement list holds at most 4 entries. -/
def listSize : Nat := 4

/-- The code a CHANNEL_BUSY answer echoes for a frame that carries no code. R177 gives the echo of BAD_FIELD for such a
frame (0x00), and says that CHANNEL_BUSY echoes the code of the request it turned away; here there is none.
DESIGN CHOICE (log 6): a free value at each use, safe. The argument counts the uses. -/
opaque noCodeBusyEcho : Nat → Byte

end Sys2Proof.Config
end

