-- ==== Sys2Proof/Syntax.lean ====
section
/-! DEFINITION. The commands of the part: one constructor of `Instr` for each row of spec/opcode_table.json, with the
operands that the layouts of R177 and R178 give it. Numbers and enumerated values of requests stay the raw bytes of the
frame, because the part itself judges them (R160, R176). -/

namespace Sys2Proof

/-- A link of the part: the control link or one of the sixteen head links. -/
inductive Link where
  | control
  | head (h : HeadNum)
  deriving DecidableEq, Repr

/-- The payload of a request after its header. `badForm` is a payload of a wrong length, or one with a presence, set or
flag byte that has a bit set beyond those defined (R160, R176); the enumerated bytes are judged by the meanings
(log 8). -/
inductive Body (α : Type) where
  | fields (f : α)
  | badForm
  deriving DecidableEq, Repr

/-- The optional fields that ADMIT, UPDATE and STORE carry under one presence byte (R177). -/
structure FieldSet where
  owner     : Option (BitVec 32)
  slotCount : Option Byte
  period    : Option Half
  band      : Option Byte
  rise      : Option Byte
  deriving DecidableEq, Repr

/-- The fields of ADMIT (R12, R177). -/
structure AdmitFields where
  identity : Identity
  cls      : Byte
  head     : Byte
  sample   : Byte
  set      : FieldSet
  deriving DecidableEq, Repr

/-- The fields of UPDATE and STORE (R29, R33, R177). -/
structure WriteFields where
  context : Half
  set     : FieldSet
  deriving DecidableEq, Repr

/-- The filter of SWEEP as it stands in the frame (R40, R177): three bit sets and a head byte, 0xFF for any head. -/
structure SweepFields where
  classSet : Byte
  stateSet : Byte
  condSet  : Byte
  head     : Byte
  deriving DecidableEq, Repr

/-- The fields of HEAD_SET (R53). -/
structure HeadSetFields where
  head     : Byte
  side     : Byte
  position : Option Half
  capacity : Half
  deriving DecidableEq, Repr

/-- The fields of SURVEY (R55): the duration is in milliseconds. -/
structure SurveyFields where
  head     : Byte
  duration : Half
  deriving DecidableEq, Repr

/-- The fields of ZONE_SET (R119): a quarter byte of 0xFF is NONE. -/
structure ZoneSetFields where
  window   : Byte
  enabled  : Byte
  base     : Half
  sizeCode : Byte
  quarters : Vector Byte 4
  deriving DecidableEq, Repr

/-- The fields of VESSEL_SET (R125). -/
structure VesselSetFields where
  window  : Byte
  enabled : Byte
  start   : Half
  length  : Half
  deriving DecidableEq, Repr

/-- The fields of PARAM_READ, and of PARAM_SET with its value (R164): a class byte of 0xFF is none. -/
structure ParamReadFields where
  parameter : Byte
  cls       : Byte
  deriving DecidableEq, Repr

structure ParamSetFields where
  parameter : Byte
  cls       : Byte
  value     : BitVec 32
  deriving DecidableEq, Repr

/-- The fields of EVENT_SETUP (R168): an event class, a level and the masked mark. -/
structure EventSetupFields where
  cls    : Byte
  level  : Byte
  masked : Byte
  deriving DecidableEq, Repr

/-- R142: why a unit sent its report. -/
inductive ReportKind where
  | periodic
  | alarm
  | defrost
  | power
  deriving DecidableEq, Repr

/-- R142: the faults a unit sees. -/
structure FaultSet where
  compressor : Bool
  sensor     : Bool
  powerOff   : Bool
  deriving DecidableEq, Repr

/-- R142: the payload of a REPORT. A temperature is the signed 16-bit field of the frame, in tenths of a degree. -/
structure ReportPayload where
  sequence : Byte
  kind     : ReportKind
  supply   : Option Half
  ret      : Option Half
  setpoint : Option Half
  faults   : FaultSet
  deriving DecidableEq, Repr

/-- The commands: one constructor per row of the table. -/
inductive Instr where
  /-- ADMIT (R12 to R16). -/
  | admitReq (ch : ChanNum) (b : Body AdmitFields)
  /-- RETIRE (R17 to R20). -/
  | retire (ch : ChanNum) (b : Body Half)
  /-- FIND (R25). -/
  | find (ch : ChanNum) (b : Body Identity)
  /-- READ (R26). -/
  | read (ch : ChanNum) (b : Body Half)
  /-- UPDATE (R29). -/
  | update (ch : ChanNum) (b : Body WriteFields)
  /-- FETCH (R30). -/
  | fetch (ch : ChanNum) (b : Body Half)
  /-- STORE (R33). -/
  | store (ch : ChanNum) (b : Body WriteFields)
  /-- RELEASE (R34). -/
  | release (ch : ChanNum) (b : Body Half)
  /-- CANCEL (R37). -/
  | cancel (ch : ChanNum) (b : Body Unit)
  /-- SWEEP (R40). -/
  | sweep (ch : ChanNum) (b : Body SweepFields)
  /-- CONTINUE (R43). -/
  | continueSweep (ch : ChanNum) (b : Body Unit)
  /-- STOP (R43). -/
  | stopSweep (ch : ChanNum) (b : Body Unit)
  /-- HEAD_SET (R53). -/
  | headSet (ch : ChanNum) (b : Body HeadSetFields)
  /-- HEAD_ENABLE (R50). -/
  | headEnable (ch : ChanNum) (b : Body Byte)
  /-- HEAD_DISABLE (R51). -/
  | headDisable (ch : ChanNum) (b : Body Byte)
  /-- HEAD_READ (R54). -/
  | headRead (ch : ChanNum) (b : Body Byte)
  /-- SURVEY (R55, R56). -/
  | survey (ch : ChanNum) (b : Body SurveyFields)
  /-- ZONE_SET (R119, R120). -/
  | zoneSet (ch : ChanNum) (b : Body ZoneSetFields)
  /-- ZONE_READ (R121). -/
  | zoneRead (ch : ChanNum) (b : Body Byte)
  /-- VESSEL_SET (R125). -/
  | vesselSet (ch : ChanNum) (b : Body VesselSetFields)
  /-- VESSEL_READ (R125). -/
  | vesselRead (ch : ChanNum) (b : Body Byte)
  /-- PLAN_READ (R139). -/
  | planRead (ch : ChanNum) (b : Body Byte)
  /-- PARAM_SET (R164). -/
  | paramSet (ch : ChanNum) (b : Body ParamSetFields)
  /-- PARAM_READ (R164). -/
  | paramRead (ch : ChanNum) (b : Body ParamReadFields)
  /-- EVENT_READ (R167). -/
  | eventRead (ch : ChanNum) (b : Body Unit)
  /-- EVENT_SETUP (R168). -/
  | eventSetup (ch : ChanNum) (b : Body EventSetupFields)
  /-- FLUSH (R171). -/
  | flush (ch : ChanNum) (b : Body Unit)
  /-- ILLEGAL: a request frame whose code names no request (R160). -/
  | illegal (ch : ChanNum) (code : Byte)
  /-- CHANNEL_DISCARD: a control link frame whose channel byte is above 3 (R176). -/
  | channelDiscard (channel : Byte)
  /-- FRAME_DISCARD: a frame with a framing error or a bad CRC on any link (R174). -/
  | frameDiscard (l : Link)
  /-- KEEPALIVE from a head, with its idle-noise sample when it carries one (R46, R57, R59). -/
  | keepalive (h : HeadNum) (sample : Option Byte)
  /-- ARRIVAL on a head's link (R66). -/
  | arrival (h : HeadNum) (tag : Half) (sample : Byte) (position : Option Half)
  /-- REPORT on a head's link (R66, R142). -/
  | report (h : HeadNum) (tag : Half) (sample : Byte) (payload : ReportPayload)
  /-- MALFORMED_HEAD_FRAME: a head frame with a good CRC that R175 calls malformed. -/
  | malformedHeadFrame (h : HeadNum)
  /-- HOLD_EXPIRY: the hold deadline of a channel (R35). -/
  | holdExpiry (ch : ChanNum)
  /-- PARK_DEADLINE: the park deadline of a channel (R36). -/
  | parkDeadline (ch : ChanNum)
  /-- IDLE_DEADLINE: the idle deadline of a sweeping channel (R43). -/
  | idleDeadline (ch : ChanNum)
  /-- LINK_LOSS: the silence deadline of a head (R48). -/
  | linkLoss (h : HeadNum)
  /-- SETTLE_DEADLINE: the settle deadline of a head (R47). -/
  | settleDeadline (h : HeadNum)
  /-- SURVEY_END_TIME: the end time of a head's survey (R58). -/
  | surveyEndTime (h : HeadNum)
  /-- LOSS_DEADLINE: the loss deadline of a crane (R81). -/
  | lossDeadline (n : CtxNum)
  /-- ORPHAN_DEADLINE: the orphan deadline of a context (R82). -/
  | orphanDeadline (n : CtxNum)
  /-- CONFIRMATION_DEADLINE: the confirmation deadline of a handover (R112). -/
  | confirmationDeadline (n : CtxNum)
  /-- STALE_DEADLINE: the stale deadline of a context's entry for a head (R92). -/
  | staleDeadline (n : CtxNum) (h : HeadNum)
  /-- DUE_EXPIRY: the reefer at the head of the due list is late by the grace (R152, R153). -/
  | dueExpiry
  /-- RESET_N_ASSERT: RESET_N driven low (R170). -/
  | resetAssert
  /-- RESET_N_RELEASE: RESET_N released (R170). -/
  | resetRelease
  /-- PART_CLOCK_TICK: one millisecond of the part clock (R169). -/
  | partClockTick
  /-- NO_CODE_REQUEST_FRAME: a request frame with a channel and no code (R176). -/
  | noCodeRequestFrame (ch : ChanNum)
  deriving DecidableEq, Repr

/-- The request codes of R177 that name a request of the part. -/
def Instr.requestCodes : List Byte :=
  [0x01, 0x02, 0x03, 0x04, 0x05, 0x06, 0x07, 0x08, 0x09, 0x0A, 0x0B, 0x0C,
   0x10, 0x11, 0x12, 0x13, 0x14, 0x18, 0x19, 0x1A, 0x1B, 0x1C, 0x20, 0x21, 0x22, 0x23, 0x24]

end Sys2Proof
end

