-- ==== Sys2Proof/Machine/State.lean ====
section
/-! DEFINITION. The state of the part: every record the spec gives it, as plain data, with the value of each after a
hardware reset; and the reasons a step can stop. -/

namespace Sys2Proof.Machine

open Sys2Proof

/-! ## The context record (R1 to R4) -/

/-- R1: the kind of terminal. -/
inductive TermClass where
  | crane
  | reefer
  | general
  deriving DecidableEq, Repr

/-- R4: the life state of a context. -/
inductive CtxState where
  | free
  | active
  | moving
  | orphan
  | silent
  deriving DecidableEq, Repr

/-- R1, R5: why a context is SILENT. -/
inductive SilentCause where
  | linkLost
  | reportMissed
  | orphaned
  deriving DecidableEq, Repr

/-- R86: one entry of a measurement list. -/
structure Entry where
  head    : HeadNum
  f       : Int
  last    : Time
  count   : Nat
  staleAt : Option Time
  stale   : Bool
  deriving DecidableEq, Repr

/-- R2: the crane part. -/
structure CranePart where
  k        : Nat
  position : Option Half
  deriving DecidableEq, Repr

/-- R145: the four indicators. -/
structure Indicators where
  warm   : Bool
  cold   : Bool
  rising : Bool
  fault  : Bool
  deriving DecidableEq, Repr

/-- R3: the reefer part. -/
structure ReeferPart where
  period     : Nat
  band       : Nat
  rise       : Nat
  admitted   : Time
  due        : Option Time
  lastSeq    : Option Byte
  lastReport : Option Time
  supply     : Option Int
  ret        : Option Int
  setpoint   : Option Int
  faults     : FaultSet
  kind       : Option ReportKind
  ind        : Indicators
  deriving DecidableEq, Repr

/-- R1: one record of the context table. The context number is the record's place in the table. `awaitsServing` is set while a
context that R63 returned to ACTIVE has had no contact from its serving head; no effect depends on it (log 20). -/
structure Context where
  gen       : BitVec 5
  state     : CtxState
  identity  : Option Identity
  cls       : Option TermClass
  owner     : BitVec 32
  serving   : Option HeadNum
  target    : Option HeadNum
  confirmAt : Option Time
  lossAt    : Option Time
  orphanAt  : Option Time
  cause     : Option SilentCause
  entries   : List Entry
  holder    : Option ChanNum
  crane     : Option CranePart
  reefer    : Option ReeferPart
  awaitsServing : Bool
  deriving DecidableEq, Repr

/-- R4, R19, R21: the FREE contents of a record, in a given generation. -/
def Context.freeIn (gen : BitVec 5) : Context where
  gen := gen
  state := .free
  identity := none
  cls := none
  owner := 0
  serving := none
  target := none
  confirmAt := none
  lossAt := none
  orphanAt := none
  cause := none
  entries := []
  holder := none
  crane := none
  reefer := none
  awaitsServing := false

/-! ## The channel record (R23, R40) -/

/-- R23: the state of a channel. -/
inductive ChanState where
  | idle
  | busy
  | parked
  | sweeping
  deriving DecidableEq, Repr

/-- R40: any subset of the classes. -/
structure ClassSet where
  crane   : Bool
  reefer  : Bool
  general : Bool
  deriving DecidableEq, Repr

/-- R40: any subset of the states but FREE. -/
structure StateSet where
  active : Bool
  moving : Bool
  orphan : Bool
  silent : Bool
  deriving DecidableEq, Repr

/-- R40: the filter of a sweep; `head` absent is any head. -/
structure SweepFilter where
  classes    : ClassSet
  states     : StateSet
  conditions : Indicators
  head       : Option HeadNum
  deriving DecidableEq, Repr

/-- R23: the filter and the cursor of a sweep in progress. -/
structure Sweep where
  filter : SweepFilter
  cursor : CtxNum
  deriving DecidableEq, Repr

/-- R23: one channel record. -/
structure Channel where
  state    : ChanState
  held     : Option CtxNum
  holdAt   : Option Time
  parkedOn : Option CtxNum
  parkAt   : Option Time
  sweep    : Option Sweep
  idleAt   : Option Time
  deriving DecidableEq, Repr

/-- R23: the reset value of a channel record. -/
def Channel.reset : Channel where
  state := .idle
  held := none
  holdAt := none
  parkedOn := none
  parkAt := none
  sweep := none
  idleAt := none

/-! ## The head record (R44) and the slot plan (R128) -/

inductive LinkState where
  | absent
  | settling
  | standby
  | inService
  deriving DecidableEq, Repr

inductive Admin where
  | enabled
  | disabled
  deriving DecidableEq, Repr

inductive Side where
  | unset
  | waterside
  | landside
  deriving DecidableEq, Repr

inductive SurveyState where
  | idle
  | running
  deriving DecidableEq, Repr

inductive SurveyOutcome where
  | none
  | done
  | failed
  | aborted
  deriving DecidableEq, Repr

/-- R44: one head record. -/
structure Head where
  link      : LinkState
  admin     : Admin
  side      : Side
  position  : Option Half
  capacity  : Nat
  load      : Nat
  floor     : Option Nat
  idle      : Option Int
  resurvey  : Bool
  silenceAt : Option Time
  settleAt  : Option Time
  survey    : SurveyState
  surveyEnd : Option Time
  samples   : Nat
  sampleSum : Nat
  outcome   : SurveyOutcome
  deriving DecidableEq, Repr

/-- R44: the reset value of a head record. -/
def Head.reset : Head where
  link := .absent
  admin := .enabled
  side := .unset
  position := none
  capacity := 256
  load := 0
  floor := none
  idle := none
  resurvey := false
  silenceAt := none
  settleAt := none
  survey := .idle
  surveyEnd := none
  samples := 0
  sampleSum := 0
  outcome := .none

/-- R128: the entry of one slot. -/
inductive SlotUse where
  | free
  | active (n : CtxNum)
  | pending (n : CtxNum)
  deriving DecidableEq, Repr

/-- R128: the plan of one head. -/
abbrev Plan := Vector SlotUse 32

/-- R128: a plan of 32 free slots. -/
def Plan.allFree : Plan := Vector.replicate 32 .free

/-! ## Windows (R118, R124), parameters (R163) and events (R165) -/

/-- R118: one zone window; a quarter head absent is NONE. -/
structure ZoneWindow where
  enabled  : Bool
  base     : Half
  sizeCode : Fin 8
  quarters : Vector (Option HeadNum) 4
  deriving DecidableEq, Repr

def ZoneWindow.reset : ZoneWindow where
  enabled := false
  base := 0
  sizeCode := 0
  quarters := Vector.replicate 4 none

/-- R124: one vessel window. -/
structure VesselWindow where
  enabled : Bool
  start   : Half
  length  : Nat
  deriving DecidableEq, Repr

def VesselWindow.reset : VesselWindow where
  enabled := false
  start := 0
  length := 1

/-- R163: one value for each class. -/
structure PerClass where
  crane   : Nat
  reefer  : Nat
  general : Nat
  deriving DecidableEq, Repr

/-- R163: the parameter record, each value in the unit of the table of R163. -/
structure Params where
  weight        : PerClass
  hysteresis    : PerClass
  ttt           : PerClass
  confirmWindow : PerClass
  bonus         : PerClass
  lossWindow    : Nat
  orphanLimit   : Nat
  grace         : Nat
  holdLimit     : Nat
  entryLifetime : Nat
  driftLimit    : Nat
  deriving DecidableEq, Repr

/-- R163: the defaults. -/
def Params.default : Params where
  weight := ⟨1, 3, 2⟩
  hysteresis := ⟨24, 48, 32⟩
  ttt := ⟨2, 4, 3⟩
  confirmWindow := ⟨60, 2000, 500⟩
  bonus := ⟨32, 0, 0⟩
  lossWindow := 120
  orphanLimit := 10
  grace := 30
  holdLimit := 50
  entryLifetime := 5000
  driftLimit := 8

/-- R165: the nine event classes, in the order of their numbers. -/
inductive EventClass where
  | headState
  | handoverFailed
  | contextSilent
  | contextOrphaned
  | reeferCondition
  | survey
  | resurveyWanted
  | holdExpired
  | headProtocol
  deriving DecidableEq, Repr

/-- R165: the subject of a raise is a head or a context. -/
inductive Subject where
  | head (h : HeadNum)
  | context (n : CtxNum)
  deriving DecidableEq, Repr

/-- R165: one event record. -/
structure EventRec where
  pending : Bool
  subject : Option Subject
  level   : Nat
  masked  : Bool
  deriving DecidableEq, Repr

/-- R165: an event record after a hardware reset, with its default level. -/
def EventRec.reset (level : Nat) : EventRec where
  pending := false
  subject := none
  level := level
  masked := false

/-! ## What the part sends: answers (R162, R177) and head messages (R178) -/

/-- The entry of a PLAN message: the context is given by its tag (R128, R130). -/
inductive PlanEntry where
  | free
  | active (tag : Half)
  | pending (tag : Half)
  deriving DecidableEq, Repr

/-- R79: the verdicts. -/
inductive Verdict where
  | accept
  | redirect
  | confirm
  | stale
  | defer
  | full
  deriving DecidableEq, Repr

/-- R178: the messages to a head. -/
inductive HeadMsg where
  | answer (tag : Half) (verdict : Verdict) (head : Option HeadNum)
  | order (tag : Half) (target : HeadNum) (slots : List SlotNum)
  | plan (slot : SlotNum) (entry : PlanEntry)
  | planClear
  | surveyBegin (duration : Nat)
  | surveyEnd
  deriving DecidableEq, Repr

/-- The host-writable and profile values as applied (R12, R28): the fields an answer carries. -/
structure Applied where
  owner     : Option (BitVec 32)
  slotCount : Option Nat
  period    : Option Nat
  band      : Option Nat
  rise      : Option Nat
  deriving DecidableEq, Repr

/-- R26, R96: a measurement entry as a read-out shows it, without its stale deadline and stale mark. -/
structure EntryOut where
  head  : HeadNum
  f     : Int
  last  : Time
  count : Nat
  deriving DecidableEq, Repr

/-- R26: one item of a slot list. -/
structure SlotOut where
  head    : HeadNum
  slot    : SlotNum
  pending : Bool
  deriving DecidableEq, Repr

/-- R26: the read-out of a context, with the held mark. -/
structure ReadOut where
  number    : CtxNum
  gen       : BitVec 5
  tag       : Half
  state     : CtxState
  identity  : Option Identity
  cls       : Option TermClass
  owner     : BitVec 32
  held      : Bool
  serving   : Option HeadNum
  target    : Option HeadNum
  confirmAt : Option Time
  lossAt    : Option Time
  orphanAt  : Option Time
  cause     : Option SilentCause
  holder    : Option ChanNum
  crane     : Option CranePart
  reefer    : Option ReeferPart
  entries   : List EntryOut
  slots     : List SlotOut
  deriving DecidableEq, Repr

/-- R139: one entry of a plan read-out, with the tag of the crane it names. -/
structure PlanItem where
  slot : SlotNum
  use  : SlotUse
  tag  : Option Half
  deriving DecidableEq, Repr

/-- R42: one entry of a block. -/
structure BlockEntry where
  number : CtxNum
  tag    : Half
  cls    : Option TermClass
  state  : CtxState
  owner  : BitVec 32
  deriving DecidableEq, Repr

/-- R163: the parameters that hold one value for each class. -/
inductive ClassParam where
  | weight
  | hysteresis
  | ttt
  | confirmWindow
  | bonus
  deriving DecidableEq, Repr

/-- R163: the parameters that hold one value. -/
inductive SingleParam where
  | lossWindow
  | orphanLimit
  | grace
  | holdLimit
  | entryLifetime
  | driftLimit
  deriving DecidableEq, Repr

/-- What PARAM_SET and PARAM_READ name (R164). -/
inductive ParamSel where
  | perClass (p : ClassParam) (c : TermClass)
  | single (p : SingleParam)
  deriving DecidableEq, Repr

/-- R162: an answer code with the payload that R177 gives it for the request answered. -/
inductive Reply where
  | done
  | doneFields (a : Applied)
  | doneValue (v : Nat)
  | doneEvent (c : EventClass) (level : Nat) (masked : Bool)
  | admitted (n : CtxNum) (tag : Half) (a : Applied)
  | already (n : CtxNum)
  | found (n : CtxNum) (tag : Half) (state : CtxState) (owner : BitVec 32)
  | recordContext (r : ReadOut)
  | recordHead (h : HeadNum) (r : Head)
  | recordZone (w : Fin 8) (r : ZoneWindow)
  | recordVessel (w : Fin 4) (r : VesselWindow)
  | recordPlan (h : HeadNum) (items : List PlanItem)
  | block (entries : List BlockEntry) (last : Bool)
  | value (p : ParamSel) (v : Nat)
  | event (c : EventClass) (subject : Option Subject) (clock : Time)
  | noEvent (clock : Time)
  | freeContext
  | absentId
  | noContext
  | craneLimit
  | headUnavailable
  | headFull
  | noSlots
  | held
  | holding
  | notHeld
  | gone
  | timeout
  | cancelled
  | channelBusy
  | illegal
  | badField
  | state
  | align
  | overlap
  deriving DecidableEq, Repr

/-- R161: an answer frame: the channel, the code of the request it answers, and the answer. -/
structure Answer where
  channel : ChanNum
  echo    : Byte
  reply   : Reply
  deriving DecidableEq, Repr

/-! ## The state -/

/-- The state of the part. `pending` is the queue of commands the part has not yet taken. `openValues` is the model's own:
the number of values the spec leaves open that the part has used so far (log 6). `counted` is the number of frames of each
head link that were counted as presence when they arrived (R175) and that wait to be taken (R83, R84, log 19). -/
@[ext]
structure State where
  pending     : List Instr
  resetLow    : Bool
  clock       : Time
  contexts    : Vector Context 2048
  idMap       : List (Identity × CtxNum)
  freeList    : List CtxNum
  craneCount  : Nat
  channels    : Vector Channel 4
  waits       : Vector (List ChanNum) 2048
  heads       : Vector Head 16
  plans       : Vector Plan 16
  zones       : Vector ZoneWindow 8
  vessels     : Vector VesselWindow 4
  dueList     : List CtxNum
  params      : Params
  events      : Vector EventRec 9
  controlTx   : List Answer
  headTx      : Vector (List HeadMsg) 16
  controlRx   : List Byte
  headRx      : Vector (List Byte) 16
  counted     : Vector Nat 16
  controlLine : List Byte
  headLines   : Vector (List Byte) 16
  openValues  : Nat
  deriving DecidableEq, Repr

/-- R165: the event records after a hardware reset. -/
def eventsReset : Vector EventRec 9 :=
  #v[.reset 1, .reset 3, .reset 2, .reset 2, .reset 1, .reset 4, .reset 5, .reset 6, .reset 7]

/-- R170: the part just after RESET_N is released. Every field holds the reset value its own rule gives (R21, R23, R24,
R44, R118, R124, R128, R158, R163, R165, R169); nothing waits on any link (R141, R170). The receive buffers and the lines
start empty: DESIGN CHOICE (log 3). The count of open values starts at 0: DESIGN CHOICE (log 6). -/
def State.reset : State where
  pending := []
  resetLow := false
  clock := 0
  contexts := Vector.replicate 2048 (Context.freeIn 0)
  idMap := []
  freeList := List.finRange 2048
  craneCount := 0
  channels := Vector.replicate 4 Channel.reset
  waits := Vector.replicate 2048 []
  heads := Vector.replicate 16 Head.reset
  plans := Vector.replicate 16 Plan.allFree
  zones := Vector.replicate 8 ZoneWindow.reset
  vessels := Vector.replicate 4 VesselWindow.reset
  dueList := []
  params := Params.default
  events := eventsReset
  controlTx := []
  headTx := Vector.replicate 16 []
  controlRx := []
  headRx := Vector.replicate 16 []
  counted := Vector.replicate 16 0
  controlLine := []
  headLines := Vector.replicate 16 []
  openValues := 0

/-! ## Why a step can stop -/

/-- No command of this part ends in a fault: the spec has no stop of any kind. Every command is carried out, answered with
a refusal code, or discarded, and each of these is a next state. The type is closed and empty. -/
inductive Fault where
  deriving DecidableEq, Repr

/-- Why the model gives a command no meaning. -/
inductive Refusal where
  /-- Raised by an arm of `exec` whose command has no meaning yet; safe. No arm of this model raises it. -/
  | notModelled (mnemonic : String)
  /-- Raised by ILLEGAL and CHANNEL_DISCARD on a term that `Instr.wf` refuses (an unknown-code frame whose code is known, a
  channel discard whose channel exists): no frame of the part is such a command. Safe (log 9). -/
  | illFormed
  deriving DecidableEq, Repr

end Sys2Proof.Machine
end

