-- ==== Sys2Proof/Machine/Ops.lean ====
section
/-! DEFINITION. The shared operations of the part: the part clock, the records and how each is read and written, events,
the queues of frames to send, slots and their PLAN messages, loads, the due list, holds, and the read-out. Every meaning
reads and writes the state through these. -/

namespace Sys2Proof.Machine

open Sys2Proof

/-! ## The part clock and deadlines (R169) -/

/-- The part-clock value that many milliseconds after a time, modulo 2^32. -/
def after (t : Time) (ms : Nat) : Time := t + BitVec.ofNat 32 ms

/-- R169: a deadline is reached when the clock less the deadline, modulo 2^32, is below 2^31. -/
def reached (now deadline : Time) : Bool := decide ((now - deadline).toNat < 2 ^ 31)

/-- R169: the first of two stored times is earlier when the second less the first is not 0 and is below 2^31. -/
def earlier (a b : Time) : Bool := decide (0 < (b - a).toNat ∧ (b - a).toNat < 2 ^ 31)

/-- A deadline that is present and reached. -/
def expired (now : Time) : Option Time → Bool
  | some d => reached now d
  | none => false

/-- Clamping to the nearest end of a range (00, "Refusing, clamping and saturating"). -/
def clamp (lo hi x : Nat) : Nat := max lo (min hi x)

def clampInt (lo hi x : Int) : Int := max lo (min hi x)

/-! ## Reading and writing the records -/

def State.ctx (s : State) (n : CtxNum) : Context := s.contexts[n]

def State.setCtx (s : State) (n : CtxNum) (c : Context) : State := { s with contexts := s.contexts.set n c }

def State.chan (s : State) (ch : ChanNum) : Channel := s.channels[ch]

def State.setChan (s : State) (ch : ChanNum) (c : Channel) : State := { s with channels := s.channels.set ch c }

/-- Only the state of the channel changes. -/
def State.setChanState (s : State) (ch : ChanNum) (st : ChanState) : State :=
  s.setChan ch { s.chan ch with state := st }

def State.wait (s : State) (n : CtxNum) : List ChanNum := s.waits[n]

def State.setWait (s : State) (n : CtxNum) (l : List ChanNum) : State := { s with waits := s.waits.set n l }

def State.headRec (s : State) (h : HeadNum) : Head := s.heads[h]

def State.setHead (s : State) (h : HeadNum) (r : Head) : State := { s with heads := s.heads.set h r }

def State.plan (s : State) (h : HeadNum) : Plan := s.plans[h]

def State.setPlan (s : State) (h : HeadNum) (p : Plan) : State := { s with plans := s.plans.set h p }

def State.inService (s : State) (h : HeadNum) : Bool := (s.headRec h).link = .inService

/-! ## Tags (R7, R8) -/

/-- R7: generation × 2048 + context number. -/
def tagOf (gen : BitVec 5) (n : CtxNum) : Half := BitVec.ofNat 16 (gen.toNat * 2048 + n.val)

/-- R7: the tag of a context as it stands. -/
def State.tag (s : State) (n : CtxNum) : Half := tagOf (s.ctx n).gen n

/-- The context number in the low 11 bits of a tag. -/
def tagNumber (tag : Half) : CtxNum := ⟨tag.toNat % 2048, Nat.mod_lt _ (by decide)⟩

/-- R8: a tag resolves when the record it names is not FREE and its generation equals the tag's high 5 bits. -/
def State.resolve (s : State) (tag : Half) : Option CtxNum :=
  if (s.ctx (tagNumber tag)).state ≠ .free ∧ (s.ctx (tagNumber tag)).gen.toNat = tag.toNat / 2048 then
    some (tagNumber tag)
  else none

/-! ## Parameters (R163) -/

def PerClass.get (p : PerClass) : TermClass → Nat
  | .crane => p.crane
  | .reefer => p.reefer
  | .general => p.general

def PerClass.put (p : PerClass) (c : TermClass) (v : Nat) : PerClass :=
  match c with
  | .crane => { p with crane := v }
  | .reefer => { p with reefer := v }
  | .general => { p with general := v }

/-- A per-class parameter of the class of a context. A FREE record has no class and uses none. -/
def PerClass.of (p : PerClass) : Option TermClass → Nat
  | some c => p.get c
  | none => 0

/-! ## Events (R165) -/

/-- The record of a class in the table is the one with its number (R165). -/
def EventClass.num : EventClass → Fin 9
  | .headState => 0
  | .handoverFailed => 1
  | .contextSilent => 2
  | .contextOrphaned => 3
  | .reeferCondition => 4
  | .survey => 5
  | .resurveyWanted => 6
  | .holdExpired => 7
  | .headProtocol => 8

def State.eventRec (s : State) (c : EventClass) : EventRec := s.events[c.num]

def State.setEvent (s : State) (c : EventClass) (r : EventRec) : State := { s with events := s.events.set c.num r }

/-- R165: a raise sets the pending mark and replaces the subject; the level and the masked mark stay. -/
def State.raise (s : State) (c : EventClass) (subject : Subject) : State :=
  s.setEvent c { s.eventRec c with pending := true, subject := some subject }

/-- R166, R170: ATTN is high while a class is pending and unmasked, and low while RESET_N is low. -/
def State.attn (s : State) : Bool := !s.resetLow && s.events.toList.any fun r => r.pending && !r.masked

/-! ## Frames to send (R46, R161, R174) -/

/-- R46: what the part sends on a head link in each link state. -/
def HeadMsg.allowedIn (m : HeadMsg) : LinkState → Bool
  | .absent => false
  | .inService => true
  | .settling | .standby =>
    match m with
    | .answer _ _ _ | .surveyBegin _ | .surveyEnd => true
    | .order _ _ _ | .plan _ _ | .planClear => false

/-- A message is queued on a head's link when the link state lets the part send it (R46). -/
def State.sendHead (s : State) (h : HeadNum) (m : HeadMsg) : State :=
  if m.allowedIn (s.headRec h).link then { s with headTx := s.headTx.set h (s.headTx[h] ++ [m]) } else s

/-- R161: an answer frame is queued on the control link. -/
def State.answer (s : State) (ch : ChanNum) (echo : Byte) (r : Reply) : State :=
  { s with controlTx := s.controlTx ++ [{ channel := ch, echo := echo, reply := r }] }

/-- R23, R161: the answer to the request a channel is carrying out is produced, and the channel leaves BUSY for IDLE. -/
def State.finish (s : State) (ch : ChanNum) (echo : Byte) (r : Reply) : State :=
  (s.answer ch echo r).setChanState ch .idle

/-! ## Slots (R128 to R130) -/

/-- The free slots of a plan, lowest first. -/
def Plan.freeSlots (p : Plan) : List SlotNum := (List.finRange 32).filter fun i => p[i] = .free

/-- R128: how many slots of a head's plan are free. -/
def State.freeCount (s : State) (h : HeadNum) : Nat := (s.plan h).freeSlots.length

/-- The entry of a PLAN message for a slot's new use (R130). -/
def State.planEntry (s : State) : SlotUse → PlanEntry
  | .free => .free
  | .active n => .active (s.tag n)
  | .pending n => .pending (s.tag n)

/-- R130: one slot changes, and a PLAN message tells the head. -/
def State.setSlot (s : State) (h : HeadNum) (i : SlotNum) (u : SlotUse) : State :=
  (s.setPlan h ((s.plan h).set i u)).sendHead h (.plan i (s.planEntry u))

/-- R130: several slots of one head change to the same use, one PLAN message for each, in the order of the list. -/
def State.setSlots (s : State) (h : HeadNum) (l : List SlotNum) (u : SlotUse) : State :=
  l.foldl (fun s i => s.setSlot h i u) s

/-- R129: the slots that a reservation of `count` slots takes. -/
def State.lowestFree (s : State) (h : HeadNum) (count : Nat) : List SlotNum := (s.plan h).freeSlots.take count

/-- R129, R132, R133: reserve slots on a head as active for a crane. -/
def State.reserveActive (s : State) (h : HeadNum) (n : CtxNum) (count : Nat) : State :=
  s.setSlots h (s.lowestFree h count) (.active n)

/-- R106, R134: reserve slots on a head as pending for a crane. -/
def State.reservePending (s : State) (h : HeadNum) (n : CtxNum) (count : Nat) : State :=
  s.setSlots h (s.lowestFree h count) (.pending n)

/-- The slots of a plan with a given use, in ascending order. -/
def Plan.slotsWith (p : Plan) (u : SlotUse) : List SlotNum := (List.finRange 32).filter fun i => p[i] = u

/-- Free every active slot of a context on a head. -/
def State.freeActive (s : State) (h : HeadNum) (n : CtxNum) : State :=
  s.setSlots h ((s.plan h).slotsWith (.active n)) .free

/-- Free every pending slot of a context on a head (R113, R136). -/
def State.freePending (s : State) (h : HeadNum) (n : CtxNum) : State :=
  s.setSlots h ((s.plan h).slotsWith (.pending n)) .free

/-- R135: turn every pending slot of a context on a head into an active one, keeping its number. -/
def State.activatePending (s : State) (h : HeadNum) (n : CtxNum) : State :=
  s.setSlots h ((s.plan h).slotsWith (.pending n)) (.active n)

/-- R26: the items of a slot list on one head. -/
def State.slotItems (s : State) (n : CtxNum) : Option HeadNum → List SlotOut
  | none => []
  | some h =>
    (List.finRange 32).filterMap fun i =>
      match (s.plan h)[i] with
      | .free => none
      | .active m => if m = n then some { head := h, slot := i, pending := false } else none
      | .pending m => if m = n then some { head := h, slot := i, pending := true } else none

/-! ## Loads (R45) -/

def State.addLoad (s : State) (h : HeadNum) : State :=
  s.setHead h { s.headRec h with load := (s.headRec h).load + 1 }

def State.subLoad (s : State) (h : HeadNum) : State :=
  s.setHead h { s.headRec h with load := (s.headRec h).load - 1 }

/-- An operation on a head that may be absent. -/
def State.onHead (s : State) (h : Option HeadNum) (f : State → HeadNum → State) : State :=
  match h with
  | some h => f s h
  | none => s

/-! ## The identity map (R9) -/

def lookupId (m : List (Identity × CtxNum)) (id : Identity) : Option CtxNum :=
  (m.find? fun e => e.1 = id).map (·.2)

/-- The map is held in rising order of identity (log 12). -/
def insertId (id : Identity) (n : CtxNum) : List (Identity × CtxNum) → List (Identity × CtxNum)
  | [] => [(id, n)]
  | e :: m => if id.toNat < e.1.toNat then (id, n) :: e :: m else e :: insertId id n m

def eraseId (m : List (Identity × CtxNum)) (id : Identity) : List (Identity × CtxNum) :=
  m.filter fun e => e.1 ≠ id

/-! ## The due list (R150) -/

def Context.due (c : Context) : Option Time := c.reefer.bind (·.due)

/-- R150: earlier due times first, equal ones by context number. -/
def State.dueBefore (s : State) (a b : CtxNum) : Bool :=
  match (s.ctx a).due, (s.ctx b).due with
  | some x, some y => earlier x y || (x == y && decide (a < b))
  | _, _ => false

def insertDue (before : CtxNum → CtxNum → Bool) (n : CtxNum) : List CtxNum → List CtxNum
  | [] => [n]
  | m :: l => if before n m then n :: m :: l else m :: insertDue before n l

/-- The due time field of a context, written in its reefer part. -/
def Context.withDue (c : Context) (t : Option Time) : Context :=
  { c with reefer := c.reefer.map fun r => { r with due := t } }

/-- R150: the due time of a reefer is set, and it is placed in the list at the place its due time gives. -/
def State.setDue (s : State) (n : CtxNum) (t : Time) : State :=
  let s := s.setCtx n ((s.ctx n).withDue (some t))
  { s with dueList := insertDue s.dueBefore n (s.dueList.filter (· ≠ n)) }

/-- A context leaves the due list and its due time becomes absent. -/
def State.clearDue (s : State) (n : CtxNum) : State :=
  let s := s.setCtx n ((s.ctx n).withDue none)
  { s with dueList := s.dueList.filter (· ≠ n) }

/-! ## Read-outs (R26, R139) -/

def Entry.out (e : Entry) : EntryOut := { head := e.head, f := e.f, last := e.last, count := e.count }

/-- R26: the read-out of a context, with its held mark. -/
def State.readOut (s : State) (n : CtxNum) (held : Bool) : ReadOut :=
  let c := s.ctx n
  { number := n, gen := c.gen, tag := s.tag n, state := c.state, identity := c.identity, cls := c.cls
    owner := c.owner, held := held, serving := c.serving, target := c.target, confirmAt := c.confirmAt
    lossAt := c.lossAt, orphanAt := c.orphanAt, cause := c.cause, holder := c.holder, crane := c.crane
    reefer := c.reefer, entries := c.entries.map Entry.out
    slots := s.slotItems n c.serving ++ s.slotItems n c.target }

/-- R139: the 32 entries of a plan, in ascending slot number, with the tags of the cranes they name. -/
def State.planItems (s : State) (h : HeadNum) : List PlanItem :=
  (List.finRange 32).map fun i =>
    { slot := i, use := (s.plan h)[i]
      tag := match (s.plan h)[i] with
        | .free => none
        | .active n => some (s.tag n)
        | .pending n => some (s.tag n) }

/-! ## Holds (R30 to R32) -/

/-- The echo of FETCH (R177): a parked FETCH is answered later, whatever request ends its wait. -/
def fetchCode : Byte := 0x06

/-- R30, R32: the hold on a context is granted to a channel, with a new hold deadline. -/
def State.grantHold (s : State) (n : CtxNum) (ch : ChanNum) : State :=
  let s := s.setCtx n { s.ctx n with holder := some ch }
  s.setChan ch { s.chan ch with held := some n, holdAt := some (after s.clock s.params.holdLimit) }

/-- R33, R34, R35, R17: the hold of a channel on a context is dropped, with its deadline. -/
def State.dropHold (s : State) (n : CtxNum) (ch : ChanNum) : State :=
  let s := s.setCtx n { s.ctx n with holder := none }
  s.setChan ch { s.chan ch with held := none, holdAt := none }

/-- R31, R32, R36, R37: a channel leaves PARKED for IDLE, its park deadline cancelled. -/
def State.unpark (s : State) (ch : ChanNum) : State :=
  s.setChan ch { s.chan ch with state := .idle, parkedOn := none, parkAt := none }

/-- R32: when a hold has ended, the channel at the head of the wait list is granted it and its FETCH is answered RECORD
with the held mark set; with no channel waiting the record is left unheld. -/
def State.handOn (s : State) (n : CtxNum) : State :=
  match s.wait n with
  | [] => s
  | ch :: rest =>
    let s := ((s.setWait n rest).unpark ch).grantHold n ch
    s.answer ch fetchCode (.recordContext (s.readOut n true))

/-! ## Taking a command -/

/-- R170: while RESET_N is low the part takes no frame and no deadline expires. -/
def State.whileRunning (s : State) (f : State → State) : State := if s.resetLow then s else f s

/-- R159, R160: how a request is taken. On an IDLE channel a payload refused for form is answered BAD_FIELD; otherwise the
channel becomes BUSY and the request goes to its owner, whose answer ends BUSY. On any other channel it is turned away with
CHANNEL_BUSY. -/
def State.takeRequest {α : Type} (s : State) (ch : ChanNum) (code : Byte) (b : Body α) (run : α → State → State) : State :=
  s.whileRunning fun s =>
    match (s.chan ch).state with
    | .idle =>
      match b with
      | .badForm => (s.setChanState ch .busy).finish ch code .badField
      | .fields f => run f (s.setChanState ch .busy)
    | .busy | .parked | .sweeping => s.answer ch code .channelBusy

/-- R159: CONTINUE and STOP on a SWEEPING channel (`onSweeping`), and on an IDLE one, where they are answered STATE (R43).
A payload refused for form leaves a SWEEPING channel as it was (R160). -/
def State.takeOnSweeping (s : State) (ch : ChanNum) (code : Byte) (b : Body Unit) (onSweeping : State → State) : State :=
  s.whileRunning fun s =>
    match (s.chan ch).state, b with
    | .idle, .badForm => (s.setChanState ch .busy).finish ch code .badField
    | .idle, .fields _ => (s.setChanState ch .busy).finish ch code .state
    | .sweeping, .badForm => s.answer ch code .badField
    | .sweeping, .fields _ => onSweeping s
    | .busy, _ | .parked, _ => s.answer ch code .channelBusy

end Sys2Proof.Machine
end

