-- ==== Sys2Proof/Machine/Flags.lean ====
section
/-! DEFINITION. The flags the part computes: the four indicators of a reefer from a new report (R145 to R149), the stale
mark of an entry (R92), re-survey wanted of a head (R60), and the pending marks the Event Unit chooses among (R167). -/

namespace Sys2Proof.Machine

open Sys2Proof

/-! ## The indicators -/

/-- R142: a temperature of the payload, signed, saturated to ±500. -/
def saturate (w : Half) : Int := clampInt (-500) 500 w.toInt

/-- R146: WARM and COLD by the stored supply and setpoint, or the old pair when either is absent. -/
def loadWarm (supply setpoint : Option Int) (band : Nat) (old : Bool) : Bool :=
  match supply, setpoint with
  | some t, some sp => decide (sp + band < t)
  | _, _ => old

def loadCold (supply setpoint : Option Int) (band : Nat) (old : Bool) : Bool :=
  match supply, setpoint with
  | some t, some sp => decide (t < sp - band)
  | _, _ => old

/-- R147: RISING is set when both readings are present and the rise reaches the limit, and cleared otherwise. -/
def loadRising (previous supply : Option Int) (rise : Nat) : Bool :=
  match previous, supply with
  | some p, some t => decide ((rise : Int) ≤ t - p)
  | _, _ => false

/-- R148: FAULT is set over a non-empty fault set. -/
def loadFault (f : FaultSet) : Bool := f.compressor || f.sensor || f.powerOff

/-- R145: what the kind of a new report does to each indicator, from the stored values after the report and the supply
before it. -/
def Indicators.after (old : Indicators) (kind : ReportKind) (previous supply setpoint : Option Int) (band rise : Nat)
    (faults : FaultSet) : Indicators :=
  match kind with
  | .periodic =>
    { warm := loadWarm supply setpoint band old.warm, cold := loadCold supply setpoint band old.cold
      rising := loadRising previous supply rise, fault := loadFault faults }
  | .alarm =>
    { warm := loadWarm supply setpoint band old.warm, cold := loadCold supply setpoint band old.cold
      rising := old.rising, fault := loadFault faults }
  | .defrost =>
    { warm := false, cold := loadCold supply setpoint band old.cold, rising := false, fault := old.fault }
  | .power =>
    { warm := old.warm, cold := old.cold, rising := false, fault := loadFault faults }

/-- R145: the kinds that move the due time. -/
def reschedules : ReportKind → Bool
  | .periodic | .defrost | .power => true
  | .alarm => false

/-- R149: at least one of WARM, COLD and FAULT was clear before the report and is set after it. -/
def Indicators.newCondition (old new : Indicators) : Bool :=
  (!old.warm && new.warm) || (!old.cold && new.cold) || (!old.fault && new.fault)

/-! ## The stale mark -/

/-- R92: when the stale deadline is reached the mark is set and the deadline becomes absent. -/
def Entry.goStale (e : Entry) : Entry := { e with stale := true, staleAt := none }

/-! ## Re-survey wanted -/

/-- R60: the distance of I from 8 × floor exceeds 8 × drift limit. -/
def drifted (idle : Int) (floor drift : Nat) : Bool := decide (8 * drift < (idle - 8 * floor).natAbs)

/-! ## Choosing an event -/

def EventClass.all : List EventClass :=
  [.headState, .handoverFailed, .contextSilent, .contextOrphaned, .reeferCondition, .survey, .resurveyWanted,
   .holdExpired, .headProtocol]

/-- R167: among the classes pending and unmasked, the lowest level, and among equals the lower class number. The list is
in class order, so an earlier class is kept against a later one of the same level. -/
def State.chosenEvent (s : State) : Option EventClass :=
  EventClass.all.foldl
    (fun best c =>
      let r := s.eventRec c
      if r.pending && !r.masked then
        match best with
        | none => some c
        | some b => if r.level < (s.eventRec b).level then some c else some b
      else best)
    none

end Sys2Proof.Machine
end

