-- ==== Sys2Proof/Machine/Operands.lean ====
section
/-! DEFINITION. The operand forms of the requests: the numbers and enumerated bytes of R177 that name something, the field
sets of R27, the profile of R12 and the filter of R40. Each reader answers none for a byte that names nothing, which the
meanings refuse with BAD_FIELD. -/

namespace Sys2Proof.Machine

open Sys2Proof

/-! ## Numbers that name something -/

/-- A context number above 2047 names nothing. -/
def ctxOf (w : Half) : Option CtxNum := if h : w.toNat < 2048 then some ⟨w.toNat, h⟩ else none

/-- A head number above 15 names nothing (0xFF included, where a head must be named: R176). -/
def headOf (b : Byte) : Option HeadNum := if h : b.toNat < 16 then some ⟨b.toNat, h⟩ else none

/-- R177: a head byte of 0xFF means NONE or any head. -/
def headChoiceOf (b : Byte) : Option (Option HeadNum) := if b = 0xFF then some none else (headOf b).map some

/-- R177: class 0 CRANE, 1 REEFER, 2 GENERAL. -/
def classOf (b : Byte) : Option TermClass :=
  match b.toNat with
  | 0 => some .crane
  | 1 => some .reefer
  | 2 => some .general
  | _ => none

/-- R177: side 0 UNSET, 1 WATERSIDE, 2 LANDSIDE. -/
def sideOf (b : Byte) : Option Side :=
  match b.toNat with
  | 0 => some .unset
  | 1 => some .waterside
  | 2 => some .landside
  | _ => none

/-- R177: a mark byte is 0 for clear and 1 for set. -/
def markOf (b : Byte) : Option Bool :=
  match b.toNat with
  | 0 => some false
  | 1 => some true
  | _ => none

/-- R119: a zone window number is 0 to 7. -/
def zoneOf (b : Byte) : Option (Fin 8) := if h : b.toNat < 8 then some ⟨b.toNat, h⟩ else none

/-- R125: a vessel window number is 0 to 3. -/
def vesselOf (b : Byte) : Option (Fin 4) := if h : b.toNat < 4 then some ⟨b.toNat, h⟩ else none

/-- R165: an event class number is 0 to 8. -/
def eventOf (b : Byte) : Option EventClass :=
  match b.toNat with
  | 0 => some .headState
  | 1 => some .handoverFailed
  | 2 => some .contextSilent
  | 3 => some .contextOrphaned
  | 4 => some .reeferCondition
  | 5 => some .survey
  | 6 => some .resurveyWanted
  | 7 => some .holdExpired
  | 8 => some .headProtocol
  | _ => none

/-! ## Parameters (R163, R164, R177) -/

def perClassSel (p : ClassParam) (cls : Byte) : Option ParamSel := (classOf cls).map (.perClass p)

/-- A parameter that is not per class is named with the class byte 0xFF, none (R164, R177). -/
def singleSel (p : SingleParam) (cls : Byte) : Option ParamSel := if cls = 0xFF then some (.single p) else none

/-- R177: parameters are numbered in the order of the table of R163. -/
def paramOf (parameter cls : Byte) : Option ParamSel :=
  match parameter.toNat with
  | 0 => perClassSel .weight cls
  | 1 => perClassSel .hysteresis cls
  | 2 => perClassSel .ttt cls
  | 3 => perClassSel .confirmWindow cls
  | 4 => perClassSel .bonus cls
  | 5 => singleSel .lossWindow cls
  | 6 => singleSel .orphanLimit cls
  | 7 => singleSel .grace cls
  | 8 => singleSel .holdLimit cls
  | 9 => singleSel .entryLifetime cls
  | 10 => singleSel .driftLimit cls
  | _ => none

/-- R163: the range of a parameter, in the unit of the table. -/
def ParamSel.range : ParamSel → Nat × Nat
  | .perClass .weight _ => (0, 4)
  | .perClass .hysteresis _ => (0, 255)
  | .perClass .ttt _ => (1, 15)
  | .perClass .confirmWindow _ => (10, 5000)
  | .perClass .bonus _ => (0, 255)
  | .single .lossWindow => (20, 2000)
  | .single .orphanLimit => (1, 600)
  | .single .grace => (0, 600)
  | .single .holdLimit => (1, 1000)
  | .single .entryLifetime => (100, 60000)
  | .single .driftLimit => (2, 64)

def Params.get (p : Params) : ParamSel → Nat
  | .perClass .weight c => p.weight.get c
  | .perClass .hysteresis c => p.hysteresis.get c
  | .perClass .ttt c => p.ttt.get c
  | .perClass .confirmWindow c => p.confirmWindow.get c
  | .perClass .bonus c => p.bonus.get c
  | .single .lossWindow => p.lossWindow
  | .single .orphanLimit => p.orphanLimit
  | .single .grace => p.grace
  | .single .holdLimit => p.holdLimit
  | .single .entryLifetime => p.entryLifetime
  | .single .driftLimit => p.driftLimit

def Params.put (p : Params) (sel : ParamSel) (v : Nat) : Params :=
  match sel with
  | .perClass .weight c => { p with weight := p.weight.put c v }
  | .perClass .hysteresis c => { p with hysteresis := p.hysteresis.put c v }
  | .perClass .ttt c => { p with ttt := p.ttt.put c v }
  | .perClass .confirmWindow c => { p with confirmWindow := p.confirmWindow.put c v }
  | .perClass .bonus c => { p with bonus := p.bonus.put c v }
  | .single .lossWindow => { p with lossWindow := v }
  | .single .orphanLimit => { p with orphanLimit := v }
  | .single .grace => { p with grace := v }
  | .single .holdLimit => { p with holdLimit := v }
  | .single .entryLifetime => { p with entryLifetime := v }
  | .single .driftLimit => { p with driftLimit := v }

/-! ## Field sets and profiles (R12, R27) -/

/-- R27 check 1, R12: the profile fields present in a set belong to the class. The owner reference belongs to every one. -/
def setBelongs (s : FieldSet) : TermClass → Bool
  | .crane => s.period.isNone && s.band.isNone && s.rise.isNone
  | .reefer => s.slotCount.isNone
  | .general => s.slotCount.isNone && s.period.isNone && s.band.isNone && s.rise.isNone

/-- R12, R27: the ranges of the profile fields. -/
def clampSlots (x : Nat) : Nat := clamp 1 4 x

def clampPeriod (x : Nat) : Nat := clamp 15 3600 x

def clampTenths (x : Nat) : Nat := clamp 1 100 x

/-- R27 check 2: each present value is clamped to the nearest end of its range. -/
def appliedSet (s : FieldSet) : Applied where
  owner := s.owner
  slotCount := s.slotCount.map fun b => clampSlots b.toNat
  period := s.period.map fun w => clampPeriod w.toNat
  band := s.band.map fun b => clampTenths b.toNat
  rise := s.rise.map fun b => clampTenths b.toNat

/-- R12: the applied profile of an ADMIT: the defaults of the class for the fields left absent, and the clamped values. An
answer ADMITTED carries the profile fields alone (R15). -/
def admitProfile (s : FieldSet) : TermClass → Applied
  | .crane => ⟨none, some (clampSlots ((s.slotCount.map (·.toNat)).getD 2)), none, none, none⟩
  | .reefer =>
    ⟨none, none, some (clampPeriod ((s.period.map (·.toNat)).getD 300)),
      some (clampTenths ((s.band.map (·.toNat)).getD 20)), some (clampTenths ((s.rise.map (·.toNat)).getD 15))⟩
  | .general => ⟨none, none, none, none, none⟩

/-! ## The filter of a sweep (R40, R177) -/

/-- R40: a bit set with a bit that names nothing, or a head byte that is neither a head nor 0xFF, is refused. -/
def filterOf (f : SweepFields) : Option SweepFilter :=
  if f.classSet.toNat < 8 ∧ f.stateSet.toNat < 16 ∧ f.condSet.toNat < 16 then
    (headChoiceOf f.head).map fun head =>
      { classes := ⟨f.classSet.getLsbD 0, f.classSet.getLsbD 1, f.classSet.getLsbD 2⟩
        states := ⟨f.stateSet.getLsbD 0, f.stateSet.getLsbD 1, f.stateSet.getLsbD 2, f.stateSet.getLsbD 3⟩
        conditions := ⟨f.condSet.getLsbD 0, f.condSet.getLsbD 1, f.condSet.getLsbD 2, f.condSet.getLsbD 3⟩
        head := head }
  else none

end Sys2Proof.Machine
end

