-- ==== Sys2Proof/Machine/Heads.lean ====
section
/-! DEFINITION. The Head Link Unit (chapter 3): presence and loss of a link, service, settings, surveys, idle noise and
withdrawal, with the requests HEAD_SET, HEAD_ENABLE, HEAD_DISABLE, HEAD_READ and SURVEY, the frame KEEPALIVE, the malformed
head frame, and the expiries of a head's deadlines. -/

namespace Sys2Proof.Machine

open Sys2Proof

/-! ## Presence (R46, R47) -/

/-- R46, R47: a frame with a good CRC. An ABSENT head enters SETTLING first; then the silence deadline is set in every
link state. -/
def State.presence (s : State) (h : HeadNum) : State :=
  let r := s.headRec h
  let r := if r.link = .absent then { r with link := .settling, settleAt := some (after s.clock Config.settleMs) } else r
  s.setHead h { r with silenceAt := some (after s.clock Config.silenceMs) }

/-- R47: a SETTLING head whose settle deadline is reached enters STANDBY, with no event. -/
def State.settle (s : State) (h : HeadNum) : State :=
  let r := s.headRec h
  if r.link = .settling ∧ expired s.clock r.settleAt = true then
    s.setHead h { r with link := .standby, settleAt := none }
  else s

/-- R46, R66, R83, R175: a frame of head h that counts as presence is taken. Its presence was counted as it arrived, unless
it is taken as it arrives: then it is counted now (log 19). -/
def State.takeFrame (s : State) (h : HeadNum) : State :=
  if s.counted[h] = 0 then s.presence h else { s with counted := s.counted.set h (s.counted[h] - 1) }

/-! ## Entry into service (R49) -/

/-- R49: a STANDBY head that is ENABLED and has a floor enters IN_SERVICE, is sent PLAN_CLEAR (R131) and raises
HEAD_STATE; any other head stays as it is. -/
def State.enterService (s : State) (h : HeadNum) : State :=
  let r := s.headRec h
  if r.link = .standby ∧ r.admin = .enabled ∧ r.floor.isSome then
    ((s.setHead h { r with link := .inService }).sendHead h .planClear).raise .headState (.head h)
  else s

/-! ## Withdrawal (R61 to R63, R137) -/

/-- R62, R63, R112: a context enters ORPHAN: no serving head, a new orphan deadline, no loss deadline, off the due list. -/
def Context.enterOrphan (c : Context) (orphanAt : Time) : Context :=
  { c.withDue none with state := .orphan, serving := none, lossAt := none, orphanAt := some orphanAt }

/-- R63, R112, R113: a handover ends without confirmation, and the context returns to ACTIVE on its serving head. -/
def Context.failHandover (c : Context) : Context := { c with state := .active, target := none, confirmAt := none }

/-- R61 to R63: what the withdrawal of head h does to one context, given the orphan deadline of the moment. A context returned
to ACTIVE awaits a contact from its serving head (R63, log 20). -/
def Context.withdrawn (h : HeadNum) (orphanAt : Time) (c : Context) : Context :=
  let kept := { c with entries := c.entries.filter fun e => e.head ≠ h }
  match c.state with
  | .free => c
  | .active => if c.serving = some h then kept.enterOrphan orphanAt else kept
  | .moving =>
    if c.target = some h then
      if c.serving = none then kept.failHandover.enterOrphan orphanAt else { kept.failHandover with awaitsServing := true }
    else if c.serving = some h then { kept with serving := none }
    else kept
  | .orphan => kept
  | .silent => if c.serving = some h then { kept with serving := none } else kept

/-- R61: the context is orphaned by the withdrawal of h. -/
def Context.orphanedBy (h : HeadNum) (c : Context) : Bool :=
  match c.state with
  | .active => c.serving = some h
  | .moving => decide (c.target = some h ∧ c.serving = none)
  | .free | .orphan | .silent => false

/-- R61: the context's handover fails by the withdrawal of h. -/
def Context.failedBy (h : HeadNum) (c : Context) : Bool :=
  match c.state with
  | .moving => c.target = some h
  | .free | .active | .orphan | .silent => false

/-- The place of the last record of a list that a test picks, counted from i. -/
def lastPlace (p : Context → Bool) : Nat → List Context → Option Nat
  | _, [] => none
  | i, c :: l =>
    match lastPlace p (i + 1) l with
    | some j => some j
    | none => if p c then some i else none

/-- R61: the highest-numbered context that a test picks. -/
def State.highest (s : State) (p : Context → Bool) : Option CtxNum :=
  (lastPlace p 0 s.contexts.toList).map (Fin.ofNat 2048)

/-- R61: an event raised once, with the highest-numbered context concerned as its subject. -/
def State.raiseHighest (s : State) (c : EventClass) : Option CtxNum → State
  | some n => s.raise c (.context n)
  | none => s

/-- R61, R137: the withdrawal of head h, as part of the change that takes h out of service. The plan is cleared without
messages; HEAD_STATE is raised by the event that withdraws the head. -/
def State.withdraw (s : State) (h : HeadNum) : State :=
  let orphaned := s.highest (Context.orphanedBy h)
  let failed := s.highest (Context.failedBy h)
  let orphanAt := after s.clock (1000 * s.params.orphanLimit)
  let dueList := s.dueList.filter fun n => !(s.ctx n).orphanedBy h
  let s := s.setHead h { s.headRec h with load := 0 }
  let s := s.setPlan h Plan.allFree
  let s := { s with contexts := s.contexts.map (Context.withdrawn h orphanAt), dueList := dueList }
  (s.raiseHighest .contextOrphaned orphaned).raiseHighest .handoverFailed failed

/-- R48: link loss, when the silence deadline is reached. Frames waiting on the link are discarded (R46). -/
def State.linkLoss (s : State) (h : HeadNum) : State :=
  let r := s.headRec h
  if r.link ≠ .absent ∧ expired s.clock r.silenceAt = true then
    let s := { s with headTx := s.headTx.set h [] }
    let s := if r.link = .inService then s.withdraw h else s
    let lost := { s.headRec h with
      link := .absent, silenceAt := none, settleAt := none, floor := none, idle := none, resurvey := false }
    let s :=
      if r.survey = .running then
        (s.setHead h { lost with survey := .idle, surveyEnd := none, outcome := .aborted }).raise .survey (.head h)
      else s.setHead h lost
    s.raise .headState (.head h)
  else s

/-! ## Surveys and idle noise (R55 to R60) -/

/-- R58: the end of a survey. The floor is the sum div the count; SURVEY_END comes before any PLAN_CLEAR. -/
def State.surveyEnds (s : State) (h : HeadNum) : State :=
  let r := s.headRec h
  if r.survey = .running ∧ expired s.clock r.surveyEnd = true then
    let ended := { r with survey := .idle, surveyEnd := none }
    let s :=
      if r.samples = 0 then
        (s.setHead h { ended with outcome := .failed }).sendHead h .surveyEnd
      else
        let floor := r.sampleSum / r.samples
        ((s.setHead h { ended with
          outcome := .done, floor := some floor, idle := some (8 * floor), resurvey := false }).sendHead h
            .surveyEnd).enterService h
    s.raise .survey (.head h)
  else s

/-- R59: I moves by a sixteenth of the gap to 8x, the quotient truncated toward zero. -/
def idleStep (idle : Int) (sample : Nat) : Int := idle + (8 * (sample : Int) - idle).tdiv 16

/-- R57, R59, R60: the idle-noise sample of a KEEPALIVE. -/
def State.noiseSample (s : State) (h : HeadNum) (x : Byte) : State :=
  let r := s.headRec h
  match r.survey with
  | .running => s.setHead h { r with samples := r.samples + 1, sampleSum := r.sampleSum + x.toNat }
  | .idle =>
    match r.floor, r.idle with
    | some floor, some idle =>
      let idle := idleStep idle x.toNat
      if drifted idle floor s.params.driftLimit ∧ r.resurvey = false then
        (s.setHead h { r with idle := some idle, resurvey := true }).raise .resurveyWanted (.head h)
      else s.setHead h { r with idle := some idle }
    | _, _ => s

/-- R46, R57, R59: a KEEPALIVE counts as presence, and its sample, when it carries one, is taken in. -/
def State.keepalive (s : State) (h : HeadNum) : Option Byte → State
  | some x => (s.takeFrame h).noiseSample h x
  | none => s.takeFrame h

/-! ## The host's requests -/

def headSetCode : Byte := 0x10
def headEnableCode : Byte := 0x11
def headDisableCode : Byte := 0x12
def headReadCode : Byte := 0x13
def surveyCode : Byte := 0x14

/-- R53: position, side and capacity together. -/
def State.headSet (s : State) (ch : ChanNum) (f : HeadSetFields) : State :=
  match headOf f.head, sideOf f.side with
  | some h, some side =>
    let capacity := clamp 1 2048 f.capacity.toNat
    (s.setHead h { s.headRec h with position := f.position, side := side, capacity := capacity }).finish ch headSetCode
      (.doneValue capacity)
  | _, _ => s.finish ch headSetCode .badField

/-- R50. -/
def State.headEnable (s : State) (ch : ChanNum) (f : Byte) : State :=
  match headOf f with
  | some h => ((s.setHead h { s.headRec h with admin := .enabled }).enterService h).finish ch headEnableCode .done
  | none => s.finish ch headEnableCode .badField

/-- R131: the messages that may still wait on the link of a head that leaves service for STANDBY. -/
def HeadMsg.keptAtDisable : HeadMsg → Bool
  | .plan _ _ | .planClear | .order _ _ _ => false
  | .answer _ _ _ | .surveyBegin _ | .surveyEnd => true

/-- R51, R131: the head leaves service for STANDBY with its withdrawal. -/
def State.disableHead (s : State) (h : HeadNum) : State :=
  let r := s.headRec h
  let s := s.setHead h { r with admin := .disabled }
  if r.link = .inService then
    let s := { s with headTx := s.headTx.set h (s.headTx[h].filter HeadMsg.keptAtDisable) }
    let s := s.withdraw h
    (s.setHead h { s.headRec h with link := .standby }).raise .headState (.head h)
  else s

/-- R51. -/
def State.headDisable (s : State) (ch : ChanNum) (f : Byte) : State :=
  match headOf f with
  | some h => (s.disableHead h).finish ch headDisableCode .done
  | none => s.finish ch headDisableCode .badField

/-- R54. -/
def State.headRead (s : State) (ch : ChanNum) (f : Byte) : State :=
  match headOf f with
  | some h => s.finish ch headReadCode (.recordHead h (s.headRec h))
  | none => s.finish ch headReadCode .badField

/-- R55: a survey starts, or restarts (R56). -/
def State.startSurvey (s : State) (h : HeadNum) (duration : Nat) : State :=
  (s.setHead h { s.headRec h with
    survey := .running, outcome := .none, samples := 0, sampleSum := 0
    surveyEnd := some (after s.clock duration) }).sendHead h (.surveyBegin duration)

/-- R55, R56. -/
def State.surveyRequest (s : State) (ch : ChanNum) (f : SurveyFields) : State :=
  match headOf f.head with
  | some h =>
    let duration := clamp 100 5000 f.duration.toNat
    match (s.headRec h).link with
    | .absent | .settling => s.finish ch surveyCode .state
    | .standby | .inService => (s.startSurvey h duration).finish ch surveyCode (.doneValue duration)
  | none => s.finish ch surveyCode .badField

/-! ## The meanings -/

/-- HEAD_SET (R53). -/
def execHeadSet (ch : ChanNum) (b : Body HeadSetFields) (s : State) : Host.Outcome State Fault Refusal :=
  .next (s.takeRequest ch headSetCode b fun f s => s.headSet ch f)

/-- HEAD_ENABLE (R50). -/
def execHeadEnable (ch : ChanNum) (b : Body Byte) (s : State) : Host.Outcome State Fault Refusal :=
  .next (s.takeRequest ch headEnableCode b fun f s => s.headEnable ch f)

/-- HEAD_DISABLE (R51). -/
def execHeadDisable (ch : ChanNum) (b : Body Byte) (s : State) : Host.Outcome State Fault Refusal :=
  .next (s.takeRequest ch headDisableCode b fun f s => s.headDisable ch f)

/-- HEAD_READ (R54). -/
def execHeadRead (ch : ChanNum) (b : Body Byte) (s : State) : Host.Outcome State Fault Refusal :=
  .next (s.takeRequest ch headReadCode b fun f s => s.headRead ch f)

/-- SURVEY (R55, R56). -/
def execSurvey (ch : ChanNum) (b : Body SurveyFields) (s : State) : Host.Outcome State Fault Refusal :=
  .next (s.takeRequest ch surveyCode b fun f s => s.surveyRequest ch f)

/-- KEEPALIVE (R46, R47, R57, R59, R60). -/
def execKeepalive (h : HeadNum) (sample : Option Byte) (s : State) : Host.Outcome State Fault Refusal :=
  .next (s.whileRunning fun s => s.keepalive h sample)

/-- MALFORMED_HEAD_FRAME (R175): presence, then HEAD_PROTOCOL. -/
def execMalformedHeadFrame (h : HeadNum) (s : State) : Host.Outcome State Fault Refusal :=
  .next (s.whileRunning fun s => (s.takeFrame h).raise .headProtocol (.head h))

/-- LINK_LOSS (R48). -/
def execLinkLoss (h : HeadNum) (s : State) : Host.Outcome State Fault Refusal :=
  .next (s.whileRunning fun s => s.linkLoss h)

/-- SETTLE_DEADLINE (R47). -/
def execSettleDeadline (h : HeadNum) (s : State) : Host.Outcome State Fault Refusal :=
  .next (s.whileRunning fun s => s.settle h)

/-- SURVEY_END_TIME (R58). -/
def execSurveyEndTime (h : HeadNum) (s : State) : Host.Outcome State Fault Refusal :=
  .next (s.whileRunning fun s => s.surveyEnds h)

end Sys2Proof.Machine
end

