-- ==== Sys2Proof/Machine/Quality.lean ====
section
/-! DEFINITION. The Quality Unit (chapter 5): margins, the filter, the measurement list and its order of sacrifice. -/

namespace Sys2Proof.Machine

open Sys2Proof

/-- R85: the sample less the floor, clamped to −64 to +127. -/
def margin (sample floor : Nat) : Int := clampInt (-64) 127 ((sample : Int) - floor)

/-- R88: F moves toward 8M by the gap over 2^w, the quotient truncated toward zero. -/
def filterStep (f m : Int) (w : Nat) : Int := f + (8 * m - f).tdiv (2 ^ w)

/-- R87: an entry is created with F = 8M and trigger count 0, fresh. -/
def Entry.create (h : HeadNum) (m : Int) (now : Time) (lifetime : Nat) : Entry where
  head := h
  f := 8 * m
  last := now
  count := 0
  staleAt := some (after now (lifetime + 1))
  stale := false

/-- R88: an existing entry is updated; its trigger count stays. -/
def Entry.update (e : Entry) (m : Int) (w : Nat) (now : Time) (lifetime : Nat) : Entry :=
  { e with f := filterStep e.f m w, last := now, staleAt := some (after now (lifetime + 1)), stale := false }

/-- R91: the age of an entry. -/
def Entry.age (e : Entry) (now : Time) : Nat := (now - e.last).toNat

/-- R91, steps 1 and 3: the older entry first, the higher head number among equals. -/
def Entry.olderThan (now : Time) (x y : Entry) : Bool :=
  decide (y.age now < x.age now ∨ (x.age now = y.age now ∧ y.head < x.head))

/-- R91, steps 2 and 3: the lower F first, then as `olderThan`. -/
def Entry.weakerThan (now : Time) (x y : Entry) : Bool :=
  decide (x.f < y.f) || (decide (x.f = y.f) && x.olderThan now y)

/-- The entry of a list that comes before every other. -/
def firstBy (before : Entry → Entry → Bool) : List Entry → Option Entry
  | [] => none
  | e :: l =>
    match firstBy before l with
    | none => some e
    | some b => if before b e then some b else some e

/-- R90: the entries open to the choice: neither the serving head's nor the target head's. -/
def openToChoice (serving target : Option HeadNum) (l : List Entry) : List Entry :=
  l.filter fun e => some e.head ≠ serving ∧ some e.head ≠ target

/-- R91: the entry that gives way. -/
def victim (now : Time) (serving target : Option HeadNum) (l : List Entry) : Option Entry :=
  let candidates := openToChoice serving target l
  let stale := candidates.filter (·.stale)
  if stale = [] then firstBy (Entry.weakerThan now) candidates else firstBy (Entry.olderThan now) stale

/-- R90: in a full list one entry gives way. -/
def makeRoom (now : Time) (serving target : Option HeadNum) (l : List Entry) : List Entry :=
  if l.length < Config.listSize then l
  else
    match victim now serving target l with
    | some v => l.filter fun e => e.head ≠ v.head
    | none => l

/-- R86: entries are kept in ascending order of head number. -/
def insertEntry (e : Entry) : List Entry → List Entry
  | [] => [e]
  | x :: l => if e.head < x.head then e :: x :: l else x :: insertEntry e l

/-- R76, R87, R88, R90: the list after a sample from head a. -/
def updateList (now : Time) (lifetime w : Nat) (serving target : Option HeadNum) (a : HeadNum) (m : Int)
    (l : List Entry) : List Entry :=
  if l.any fun e => e.head = a then
    l.map fun e => if e.head = a then e.update m w now lifetime else e
  else insertEntry (Entry.create a m now lifetime) (makeRoom now serving target l)

/-- R76: stage 4 on a context, with the floor of head a as it stands. A head in service has a floor (R49), so the case of
no floor is not reached (log 10). -/
def State.qualityUpdate (s : State) (a : HeadNum) (n : CtxNum) (sample : Byte) : State :=
  match (s.headRec a).floor with
  | none => s
  | some floor =>
    let c := s.ctx n
    s.setCtx n { c with
      entries := updateList s.clock s.params.entryLifetime (s.params.weight.of c.cls) c.serving c.target a
        (margin sample.toNat floor) c.entries }

/-- R92: the stale deadline of an entry of a context. -/
def State.staleDeadline (s : State) (n : CtxNum) (h : HeadNum) : State :=
  let c := s.ctx n
  s.setCtx n { c with
    entries := c.entries.map fun e => if e.head = h ∧ expired s.clock e.staleAt = true then e.goStale else e }

end Sys2Proof.Machine
end

