-- ==== Sys2Proof/Machine/Reefers.lean ====
section
/-! DEFINITION. The Reefer Unit (chapter 9): the intake of a report, the moving of a due time, and the due expiry's test. -/

namespace Sys2Proof.Machine

open Sys2Proof

/-- R144: what a new report stores, with the indicators of R145 worked out from the values before and after. -/
def ReeferPart.take (r : ReeferPart) (p : ReportPayload) (now : Time) : ReeferPart :=
  let supply := p.supply.map saturate
  let setpoint := match p.setpoint with
    | some w => some (saturate w)
    | none => r.setpoint
  { r with
    lastSeq := some p.sequence
    lastReport := some now
    supply := supply
    ret := p.ret.map saturate
    setpoint := setpoint
    faults := p.faults
    kind := some p.kind
    ind := r.ind.after p.kind r.supply supply setpoint r.band r.rise p.faults }

/-- The due time one period after a moment (R150); the period is in seconds. -/
def dueFrom (start : Time) (period : Nat) : Time := after start (1000 * period)

/-- R143 to R151: stage 5 of a contact. A duplicate changes nothing; a new report is stored, may raise REEFER_CONDITION,
and moves the due time of a reefer on the due list when its kind reschedules. Only a REEFER has a reefer part (R77). -/
def State.intake (s : State) (n : CtxNum) (p : ReportPayload) : State :=
  match (s.ctx n).reefer with
  | none => s
  | some r =>
    if r.lastSeq = some p.sequence then s
    else
      let r' := r.take p s.clock
      let s := s.setCtx n { s.ctx n with reefer := some r' }
      let s := if r.ind.newCondition r'.ind then s.raise .reeferCondition (.context n) else s
      if reschedules p.kind ∧ r.due.isSome then s.setDue n (dueFrom s.clock r.period) else s

/-- R150, R155: a new period counts from the count start, which is the due time less the old period. DEDUCED (log 21): the
"last report time" by which R155 describes the count start is that of the last report that rescheduled, so an ALARM taken
since, which sets the field of that name (R144), does not move it. -/
def newDue (due : Time) (oldPeriod newPeriod : Nat) : Time :=
  dueFrom (due - BitVec.ofNat 32 (1000 * oldPeriod)) newPeriod

/-- R154 to R156: the profile values of a field set are stored, and a new period moves the due time of a reefer on the due
list. The indicators are not worked out again. -/
def State.writeProfile (s : State) (n : CtxNum) (a : Applied) : State :=
  match (s.ctx n).reefer with
  | none => s
  | some r =>
    let period := a.period.getD r.period
    let s := s.setCtx n { s.ctx n with
      reefer := some { r with period := period, band := a.band.getD r.band, rise := a.rise.getD r.rise } }
    match r.due with
    | some due => if period = r.period then s else s.setDue n (newDue due r.period period)
    | none => s

/-- R152: the reefer at the head of the due list, when its due time + grace is reached. -/
def State.lateReefer (s : State) : Option CtxNum :=
  match s.dueList with
  | [] => none
  | n :: _ =>
    match (s.ctx n).due with
    | some due => if reached s.clock (after due (1000 * s.params.grace)) then some n else none
    | none => none

end Sys2Proof.Machine
end

