-- ==== Sys2Proof/Machine/ZoneMap.lean ====
section
/-! DEFINITION. The Zone Map (chapter 7): zone windows and the preferred head, vessel windows and shadowing, and the
requests ZONE_SET, ZONE_READ, VESSEL_SET and VESSEL_READ. -/

namespace Sys2Proof.Machine

open Sys2Proof

/-! ## Zone windows -/

/-- R118: the size of a window is 256 × 2^s dm. -/
def zoneSize (sizeCode : Fin 8) : Nat := 256 * 2 ^ sizeCode.val

def ZoneWindow.size (z : ZoneWindow) : Nat := zoneSize z.sizeCode

/-- R122: a position lies in a window when base ≤ p ≤ base + size − 1. -/
def ZoneWindow.holds (z : ZoneWindow) (p : Nat) : Bool := decide (z.base.toNat ≤ p ∧ p ≤ z.base.toNat + z.size - 1)

/-- R122: the quarter of a position within a window, 0 to 3. -/
def ZoneWindow.quarter (z : ZoneWindow) (p : Nat) : Nat := (p - z.base.toNat) / (z.size / 4)

/-- R122: the quarter head of a position; NONE gives none. -/
def ZoneWindow.headAt (z : ZoneWindow) (p : Nat) : Option HeadNum := (z.quarters.toList[z.quarter p]?).join

/-- R119 check 4: the lower end of each window is at or below the upper end of the other. -/
def ZoneWindow.overlaps (x y : ZoneWindow) : Bool :=
  decide (x.base.toNat ≤ y.base.toNat + y.size - 1 ∧ y.base.toNat ≤ x.base.toNat + x.size - 1)

/-- R122: the preferred head of a position. Enabled windows share no position (R120), so the first that holds it is the
only one. -/
def State.preferredAt (s : State) (p : Nat) : Option HeadNum :=
  match s.zones.toList.find? fun z => z.enabled && z.holds p with
  | some z => z.headAt p
  | none => none

/-- R101, R122: the preferred head of a context: a CRANE with a last position asks; no other does. -/
def State.preferred (s : State) (n : CtxNum) : Option HeadNum :=
  match (s.ctx n).crane with
  | some part =>
    match part.position with
    | some p => s.preferredAt p.toNat
    | none => none
  | none => none

def State.zone (s : State) (w : Fin 8) : ZoneWindow := s.zones[w]

def State.setZone (s : State) (w : Fin 8) (z : ZoneWindow) : State := { s with zones := s.zones.set w z }

/-- R119 check 1: the contents a request gives a window, when every byte names something. -/
def zoneContents (f : ZoneSetFields) : Option ZoneWindow :=
  match markOf f.enabled, headChoiceOf f.quarters[0], headChoiceOf f.quarters[1], headChoiceOf f.quarters[2],
      headChoiceOf f.quarters[3] with
  | some enabled, some q0, some q1, some q2, some q3 =>
    if h : f.sizeCode.toNat < 8 then
      some { enabled := enabled, base := f.base, sizeCode := ⟨f.sizeCode.toNat, h⟩, quarters := #v[q0, q1, q2, q3] }
    else none
  | _, _, _, _, _ => none

/-- R119 checks 2 and 3, for an enabled window. -/
def ZoneWindow.misaligned (z : ZoneWindow) : Bool :=
  decide (z.base.toNat % z.size ≠ 0 ∨ 65536 < z.base.toNat + z.size)

/-- R119 check 4: some other enabled window shares a position with the new contents. -/
def State.zoneClash (s : State) (w : Fin 8) (z : ZoneWindow) : Bool :=
  (List.finRange 8).any fun i => decide (i ≠ w) && (s.zone i).enabled && z.overlaps (s.zone i)

/-- The request codes of this chapter (R177). -/
def zoneSetCode : Byte := 0x18
def zoneReadCode : Byte := 0x19
def vesselSetCode : Byte := 0x1A
def vesselReadCode : Byte := 0x1B

/-- R119, R120. -/
def State.zoneSet (s : State) (ch : ChanNum) (f : ZoneSetFields) : State :=
  match zoneOf f.window, zoneContents f with
  | some w, some z =>
    if z.enabled ∧ z.misaligned then s.finish ch zoneSetCode .align
    else if z.enabled ∧ s.zoneClash w z then s.finish ch zoneSetCode .overlap
    else (s.setZone w z).finish ch zoneSetCode .done
  | _, _ => s.finish ch zoneSetCode .badField

/-- R121. -/
def State.zoneRead (s : State) (ch : ChanNum) (f : Byte) : State :=
  match zoneOf f with
  | some w => s.finish ch zoneReadCode (.recordZone w (s.zone w))
  | none => s.finish ch zoneReadCode .badField

/-! ## Vessel windows and shadowing -/

/-- R124: the last position a window covers; the window is cut off at 65535. -/
def VesselWindow.upper (v : VesselWindow) : Nat := min (v.start.toNat + v.length - 1) 65535

def VesselWindow.holds (v : VesselWindow) (p : Nat) : Bool := decide (v.start.toNat ≤ p ∧ p ≤ v.upper)

/-- R126: a WATERSIDE head with a position within an enabled vessel window is shadowed. -/
def State.shadowed (s : State) (h : HeadNum) : Bool :=
  match (s.headRec h).side, (s.headRec h).position with
  | .waterside, some p => s.vessels.toList.any fun v => v.enabled && v.holds p.toNat
  | _, _ => false

def State.vessel (s : State) (w : Fin 4) : VesselWindow := s.vessels[w]

def State.setVessel (s : State) (w : Fin 4) (v : VesselWindow) : State := { s with vessels := s.vessels.set w v }

/-- R125. -/
def State.vesselSet (s : State) (ch : ChanNum) (f : VesselSetFields) : State :=
  match vesselOf f.window, markOf f.enabled with
  | some w, some enabled =>
    let length := clamp 1 65535 f.length.toNat
    (s.setVessel w { enabled := enabled, start := f.start, length := length }).finish ch vesselSetCode (.doneValue length)
  | _, _ => s.finish ch vesselSetCode .badField

/-- R125. -/
def State.vesselRead (s : State) (ch : ChanNum) (f : Byte) : State :=
  match vesselOf f with
  | some w => s.finish ch vesselReadCode (.recordVessel w (s.vessel w))
  | none => s.finish ch vesselReadCode .badField

/-! ## The meanings -/

/-- ZONE_SET (R119, R120). -/
def execZoneSet (ch : ChanNum) (b : Body ZoneSetFields) (s : State) : Host.Outcome State Fault Refusal :=
  .next (s.takeRequest ch zoneSetCode b fun f s => s.zoneSet ch f)

/-- ZONE_READ (R121). -/
def execZoneRead (ch : ChanNum) (b : Body Byte) (s : State) : Host.Outcome State Fault Refusal :=
  .next (s.takeRequest ch zoneReadCode b fun f s => s.zoneRead ch f)

/-- VESSEL_SET (R125). -/
def execVesselSet (ch : ChanNum) (b : Body VesselSetFields) (s : State) : Host.Outcome State Fault Refusal :=
  .next (s.takeRequest ch vesselSetCode b fun f s => s.vesselSet ch f)

/-- VESSEL_READ (R125). -/
def execVesselRead (ch : ChanNum) (b : Body Byte) (s : State) : Host.Outcome State Fault Refusal :=
  .next (s.takeRequest ch vesselReadCode b fun f s => s.vesselRead ch f)

end Sys2Proof.Machine
end

