-- ==== Sys2Proof/Machine/Handover.lean ====
section
/-! DEFINITION. The Handover Unit (chapter 6): the evaluation of candidates, the start of a handover, its confirmation, its
failure and abandonment, and the expiry of the confirmation deadline. -/

namespace Sys2Proof.Machine

open Sys2Proof

/-- The slot count of a CRANE context; other contexts reserve no slots (R128). -/
def Context.slotNeed (c : Context) : Nat :=
  match c.crane with
  | some part => part.k
  | none => 0

/-- An operation that only a CRANE context has. -/
def State.forCrane (s : State) (n : CtxNum) (f : State → State) : State :=
  if (s.ctx n).cls = some .crane then f s else s

/-! ## Evaluation (R99 to R104) -/

/-- R101: a comparison value is F, with the bonus when the head is the preferred one. -/
def compareValue (preferred : Option HeadNum) (bonus : Nat) (e : Entry) : Int :=
  if preferred = some e.head then e.f + bonus else e.f

/-- R100: the tests of a candidate. -/
def State.eligible (s : State) (n : CtxNum) (e : Entry) : Bool :=
  !e.stale && !s.shadowed e.head && decide ((s.headRec e.head).load < (s.headRec e.head).capacity) &&
    (decide ((s.ctx n).cls ≠ some .crane) || decide ((s.ctx n).slotNeed ≤ s.freeCount e.head))

/-- R103: the trigger count an entry is given, from the comparison value of the serving entry. -/
def State.countAfter (s : State) (n : CtxNum) (serving : HeadNum) (preferred : Option HeadNum) (vServing : Int)
    (e : Entry) : Nat :=
  let c := s.ctx n
  if e.head = serving then 0
  else if s.eligible n e = true ∧
      vServing + s.params.hysteresis.of c.cls ≤ compareValue preferred (s.params.bonus.of c.cls) e then
    min (e.count + 1) (s.params.ttt.of c.cls)
  else 0

/-- R104: the higher comparison value first, the lower head number among equals. -/
def betterTarget (preferred : Option HeadNum) (bonus : Nat) (x y : Entry) : Bool :=
  decide (compareValue preferred bonus y < compareValue preferred bonus x ∨
    (compareValue preferred bonus x = compareValue preferred bonus y ∧ x.head < y.head))

/-- R104: the candidate chosen among those whose count equals the trigger target. -/
def chooseTarget (serving : HeadNum) (preferred : Option HeadNum) (bonus ttt : Nat) (l : List Entry) : Option HeadNum :=
  (firstBy (betterTarget preferred bonus) (l.filter fun e => e.head ≠ serving ∧ e.count = ttt)).map (·.head)

/-- R105 to R107, R134: a handover starts toward a target. A CRANE's pending slots are reserved there with their PLAN
messages, and the ORDER goes to the serving head with their numbers. -/
def State.startHandover (s : State) (n : CtxNum) (serving target : HeadNum) : State :=
  let c := s.ctx n
  let slots := if c.cls = some .crane then s.lowestFree target c.slotNeed else []
  let s := s.setCtx n { c with
    state := .moving, target := some target
    confirmAt := some (after s.clock (s.params.confirmWindow.of c.cls))
    entries := c.entries.map fun e => { e with count := 0 } }
  let s := s.forCrane n fun s => s.reservePending target n c.slotNeed
  s.sendHead serving (.order (s.tag n) target slots)

/-- R103: the trigger counts of the list are set. -/
def State.setCounts (s : State) (n : CtxNum) (serving : HeadNum) (vServing : Int) : State :=
  let c := s.ctx n
  let preferred := s.preferred n
  s.setCtx n { c with
    entries := c.entries.map fun e => { e with count := s.countAfter n serving preferred vServing e } }

/-- R99 to R104: the evaluation of stage 7, on an ACTIVE context with a serving head. The list holds the serving entry
(R86), so the case without it is not reached (log 10). -/
def State.evaluate (s : State) (n : CtxNum) : State :=
  let c := s.ctx n
  match c.state, c.serving with
  | .active, some serving =>
    match c.entries.find? fun e => e.head = serving with
    | none => s
    | some own =>
      let preferred := s.preferred n
      let bonus := s.params.bonus.of c.cls
      let s' := s.setCounts n serving (compareValue preferred bonus own)
      match chooseTarget serving preferred bonus (s.params.ttt.of c.cls) (s'.ctx n).entries with
      | some target => s'.startHandover n serving target
      | none => s'
  | _, _ => s

/-- R78, R99, R103: stage 7 of a contact on head a. Every contact that leaves the context ACTIVE is evaluated, whichever head
heard it. R63: a contact from the serving head clears the mark of a context that R63 returned to ACTIVE. DEDUCED (log 20): the
mark does not keep a contact from another head from being evaluated. -/
def State.evaluateAt (s : State) (a : HeadNum) (n : CtxNum) : State :=
  let c := s.ctx n
  if c.serving = some a then (s.setCtx n { c with awaitsServing := false }).evaluate n else s.evaluate n

/-! ## Confirmation (R110, R111, R135) -/

/-- R110, R111: a contact from the target confirms the handover. -/
def State.confirm (s : State) (n : CtxNum) (target : HeadNum) : State :=
  let former := (s.ctx n).serving
  let s := s.forCrane n fun s =>
    (s.onHead former fun s h => s.freeActive h n).activatePending target n
  let s := (s.onHead former State.subLoad).addLoad target
  s.setCtx n { s.ctx n with state := .active, serving := some target, target := none, confirmAt := none }

/-! ## Failure and abandonment (R112, R113) -/

/-- R113: the target side is given up: a CRANE's pending slots are freed, the target head and the confirmation deadline
become absent, and HANDOVER_FAILED is raised. The state of the context is the caller's. -/
def State.giveUpTarget (s : State) (n : CtxNum) : State :=
  let target := (s.ctx n).target
  let s := s.forCrane n fun s => s.onHead target fun s h => s.freePending h n
  let s := s.setCtx n { s.ctx n with target := none, confirmAt := none }
  s.raise .handoverFailed (.context n)

/-- R62, R82, R112: a context enters ORPHAN; a REEFER leaves the due list. -/
def State.orphan (s : State) (n : CtxNum) : State :=
  let s := s.setCtx n ((s.ctx n).enterOrphan (after s.clock (1000 * s.params.orphanLimit)))
  { s with dueList := s.dueList.filter (· ≠ n) }

/-- R112: the confirmation deadline of a MOVING context is reached. -/
def State.confirmationDeadline (s : State) (n : CtxNum) : State :=
  let c := s.ctx n
  if c.state = .moving ∧ expired s.clock c.confirmAt = true then
    let s := s.giveUpTarget n
    match c.serving with
    | some _ => s.setCtx n { s.ctx n with state := .active }
    | none => (s.orphan n).raise .contextOrphaned (.context n)
  else s

/-! ## Falling silent (R81, R82, R153) -/

/-- R5: a context enters SILENT with its cause. The loss deadline, the orphan deadline and the due time, which belong to the
states left, become absent; the serving head is kept as it is. -/
def State.fallSilent (s : State) (n : CtxNum) (cause : SilentCause) : State :=
  let s := s.setCtx n { (s.ctx n).withDue none with
    state := .silent, cause := some cause, lossAt := none, orphanAt := none }
  { s with dueList := s.dueList.filter (· ≠ n) }.raise .contextSilent (.context n)

/-- A handover in flight is abandoned before the context falls silent (R81, R153). -/
def State.abandonAndFallSilent (s : State) (n : CtxNum) (cause : SilentCause) : State :=
  match (s.ctx n).state with
  | .moving => (s.giveUpTarget n).fallSilent n cause
  | .free | .active | .orphan | .silent => s.fallSilent n cause

/-- R81: the loss deadline of a crane is reached. -/
def State.lossDeadline (s : State) (n : CtxNum) : State :=
  let c := s.ctx n
  if (c.state = .active ∨ c.state = .moving) ∧ expired s.clock c.lossAt = true then
    s.abandonAndFallSilent n .linkLost
  else s

/-- R82: the orphan deadline of a context is reached. -/
def State.orphanDeadline (s : State) (n : CtxNum) : State :=
  let c := s.ctx n
  if c.state = .orphan ∧ expired s.clock c.orphanAt = true then s.fallSilent n .orphaned else s

/-- R153: the due expiry of the reefer at the head of the due list. Only ACTIVE and MOVING contexts are on the list
(R150). -/
def State.dueExpiry (s : State) : State :=
  match s.lateReefer with
  | some n =>
    if (s.ctx n).state = .active ∨ (s.ctx n).state = .moving then s.abandonAndFallSilent n .reportMissed else s
  | none => s

/-! ## The meanings -/

/-- CONFIRMATION_DEADLINE (R112). -/
def execConfirmationDeadline (n : CtxNum) (s : State) : Host.Outcome State Fault Refusal :=
  .next (s.whileRunning fun s => s.confirmationDeadline n)

/-- LOSS_DEADLINE (R81). -/
def execLossDeadline (n : CtxNum) (s : State) : Host.Outcome State Fault Refusal :=
  .next (s.whileRunning fun s => s.lossDeadline n)

/-- ORPHAN_DEADLINE (R82). -/
def execOrphanDeadline (n : CtxNum) (s : State) : Host.Outcome State Fault Refusal :=
  .next (s.whileRunning fun s => s.orphanDeadline n)

/-- STALE_DEADLINE (R92). -/
def execStaleDeadline (n : CtxNum) (h : HeadNum) (s : State) : Host.Outcome State Fault Refusal :=
  .next (s.whileRunning fun s => s.staleDeadline n h)

/-- DUE_EXPIRY (R152, R153). -/
def execDueExpiry (s : State) : Host.Outcome State Fault Refusal :=
  .next (s.whileRunning fun s => s.dueExpiry)

end Sys2Proof.Machine
end

