-- ==== Sys2Proof/Machine/Contacts.lean ====
section
/-! DEFINITION. The Contact Unit (chapter 4): the eight stages of an ARRIVAL or a REPORT, its verdicts, the return from
silence and the re-home. -/

namespace Sys2Proof.Machine

open Sys2Proof

/-- R75: what belongs to ACTIVE is started when a context enters it from ORPHAN or SILENT. -/
def State.enterActive (s : State) (n : CtxNum) : State :=
  let c := s.ctx n
  match c.cls with
  | some .crane => s.setCtx n { c with lossAt := some (after s.clock s.params.lossWindow) }
  | some .reefer =>
    match c.reefer with
    | some r => s.setDue n (dueFrom s.clock r.period)
    | none => s
  | some .general | none => s

/-- R72: a contact returns a SILENT context with a serving head from silence. -/
def State.returnFromSilence (s : State) (n : CtxNum) : State :=
  (s.setCtx n { s.ctx n with state := .active, cause := none, awaitsServing := false }).enterActive n

/-- R73: the conditions of a re-home on head a. -/
def State.hasRoom (s : State) (a : HeadNum) (n : CtxNum) : Bool :=
  decide ((s.headRec a).load < (s.headRec a).capacity) &&
    (decide ((s.ctx n).cls ≠ some .crane) || decide ((s.ctx n).slotNeed ≤ s.freeCount a))

/-- R73, R132: a re-home on head a. -/
def State.rehome (s : State) (a : HeadNum) (n : CtxNum) : State :=
  let s := s.addLoad a
  let s := s.setCtx n { s.ctx n with
    state := .active, serving := some a, orphanAt := none, cause := none, awaitsServing := false }
  let s := s.forCrane n fun s => s.reserveActive a n (s.ctx n).slotNeed
  s.enterActive n

/-- R73, R74: a contact judged for a re-home. -/
def State.judgeRehome (s : State) (a : HeadNum) (n : CtxNum) : State × Verdict × Option HeadNum :=
  if s.hasRoom a n then (s.rehome a n, .accept, some a) else (s, .full, none)

/-- Stage 3 (R70 to R74): the state after it, the verdict, and the head field of the ANSWER (R79). A FREE record is not
resolved (R8), so its case is not reached (log 10). -/
def State.giveVerdict (s : State) (a : HeadNum) (n : CtxNum) : State × Verdict × Option HeadNum :=
  let c := s.ctx n
  match c.state with
  | .free => (s, .stale, none)
  | .active => if c.serving = some a then (s, .accept, some a) else (s, .redirect, c.serving)
  | .moving =>
    if c.target = some a then (s.confirm n a, .confirm, some a)
    else if c.serving = some a then (s, .accept, some a)
    else (s, .redirect, c.target)
  | .orphan => s.judgeRehome a n
  | .silent =>
    match c.serving with
    | some h => (s.returnFromSilence n, if h = a then .accept else .redirect, some h)
    | none => s.judgeRehome a n

/-- R76: an ARRIVAL's position replaces a crane's last position; for another class it is ignored. -/
def State.capturePosition (s : State) (n : CtxNum) (position : Option Half) : State :=
  match position, (s.ctx n).crane with
  | some p, some part => s.setCtx n { s.ctx n with crane := some { part with position := some p } }
  | _, _ => s

/-- R78: stage 6, for a CRANE that is ACTIVE or MOVING. -/
def State.restartLoss (s : State) (n : CtxNum) : State :=
  let c := s.ctx n
  if c.cls = some .crane ∧ (c.state = .active ∨ c.state = .moving) then
    s.setCtx n { c with lossAt := some (after s.clock s.params.lossWindow) }
  else s

/-- Stages 4 to 7 (R76 to R78) on the state that stage 3 left. -/
def State.laterStages (s : State) (a : HeadNum) (n : CtxNum) (sample : Byte) (position : Option Half)
    (payload : Option ReportPayload) : State :=
  let s := (s.qualityUpdate a n sample).capturePosition n position
  let s := match payload with
    | some p => s.intake n p
    | none => s
  (s.restartLoss n).evaluateAt a n

/-- R66: the eight stages of a contact on head a. A contact taken after the loss of its link finds the head ABSENT, and its
ANSWER is discarded (R46, R83). -/
def State.contact (s : State) (a : HeadNum) (tag : Half) (sample : Byte) (position : Option Half)
    (payload : Option ReportPayload) : State :=
  let s := s.takeFrame a
  match s.resolve tag with
  | none => s.sendHead a (.answer tag .stale none)
  | some n =>
    if s.inService a then
      let r := s.giveVerdict a n
      (r.1.laterStages a n sample position payload).sendHead a (.answer tag r.2.1 r.2.2)
    else s.sendHead a (.answer tag .defer none)

/-! ## The meanings -/

/-- ARRIVAL (R66 to R79). -/
def execArrival (h : HeadNum) (tag : Half) (sample : Byte) (position : Option Half) (s : State) :
    Host.Outcome State Fault Refusal :=
  .next (s.whileRunning fun s => s.contact h tag sample position none)

/-- REPORT (R66 to R79, R142 to R151). -/
def execReport (h : HeadNum) (tag : Half) (sample : Byte) (payload : ReportPayload) (s : State) :
    Host.Outcome State Fault Refusal :=
  .next (s.whileRunning fun s => s.contact h tag sample none (some payload))

end Sys2Proof.Machine
end

