-- ==== Sys2Proof/Machine/Admission.lean ====
section
/-! DEFINITION. The Context Store (chapter 1): ADMIT and RETIRE. -/

namespace Sys2Proof.Machine

open Sys2Proof

def admitCode : Byte := 0x01
def retireCode : Byte := 0x02

/-! ## ADMIT (R12 to R15) -/

/-- R2, R14: the crane part at admission. -/
def craneAtAdmission (a : Applied) : TermClass → Option CranePart
  | .crane => some { k := a.slotCount.getD 2, position := none }
  | .reefer | .general => none

/-- R3, R14: the reefer part at admission; the due time is set when the context joins the due list (R15). -/
def reeferAtAdmission (a : Applied) (now : Time) : TermClass → Option ReeferPart
  | .reefer =>
    some { period := a.period.getD 300, band := a.band.getD 20, rise := a.rise.getD 15, admitted := now, due := none
           lastSeq := none, lastReport := none, supply := none, ret := none, setpoint := none
           faults := ⟨false, false, false⟩, kind := none, ind := ⟨false, false, false, false⟩ }
  | .crane | .general => none

/-- R14, R15: the record of a new context. -/
def admittedContext (gen : BitVec 5) (f : AdmitFields) (cls : TermClass) (h : HeadNum) (a : Applied) (now : Time)
    (entries : List Entry) : Context :=
  { Context.freeIn gen with
    state := .active, identity := some f.identity, cls := some cls, owner := f.set.owner.getD 0, serving := some h
    entries := entries, crane := craneAtAdmission a cls, reefer := reeferAtAdmission a now cls }

/-- R15: the one entry of the new measurement list, from head h's floor. A head in service has a floor (log 10). -/
def State.firstEntries (s : State) (h : HeadNum) (sample : Byte) : List Entry :=
  match (s.headRec h).floor with
  | some floor => [Entry.create h (margin sample.toNat floor) s.clock s.params.entryLifetime]
  | none => []

/-- R14, R15: an ADMIT that passes every check makes the record n, taken from the head of the free list, the new context
on head h; `rest` is the free list without n. -/
def State.admitAccepted (s : State) (ch : ChanNum) (f : AdmitFields) (cls : TermClass) (h : HeadNum) (n : CtxNum)
    (rest : List CtxNum) : State :=
  let a := admitProfile f.set cls
  let c := admittedContext (s.ctx n).gen f cls h a s.clock (s.firstEntries h f.sample)
  let s := { s.setCtx n c with freeList := rest, idMap := insertId f.identity n s.idMap }
  let s := s.addLoad h
  let s :=
    match cls with
    | .crane => { s with craneCount := s.craneCount + 1 }.reserveActive h n (a.slotCount.getD 2)
    | .reefer | .general => s
  let s := s.enterActive n
  s.finish ch admitCode (.admitted n (s.tag n) a)

/-- R13: the checks in their order, each with its refusal; the admission when all pass. -/
def State.admission (s : State) (ch : ChanNum) (f : AdmitFields) : State :=
  match headOf f.head, classOf f.cls with
  | some h, some cls =>
    if setBelongs f.set cls = false then s.finish ch admitCode .badField
    else
      match lookupId s.idMap f.identity with
      | some n => s.finish ch admitCode (.already n)
      | none =>
        if s.inService h = false then s.finish ch admitCode .headUnavailable
        else
          match s.freeList with
          | [] => s.finish ch admitCode .noContext
          | n :: rest =>
            if cls = .crane ∧ Config.craneCap ≤ s.craneCount then s.finish ch admitCode .craneLimit
            else if (s.headRec h).capacity ≤ (s.headRec h).load then s.finish ch admitCode .headFull
            else if cls = .crane ∧ s.freeCount h < (admitProfile f.set cls).slotCount.getD 2 then
              s.finish ch admitCode .noSlots
            else s.admitAccepted ch f cls h n rest
  | _, _ => s.finish ch admitCode .badField

/-! ## RETIRE (R17 to R19) -/

/-- R17: every channel parked on the record is answered GONE, in the order in which the channels parked, and becomes
IDLE. -/
def State.answerGone (s : State) (n : CtxNum) : State :=
  ((s.wait n).foldl (fun s c => (s.answer c fetchCode .gone).unpark c) s).setWait n []

/-- R17: the requesting channel's own hold is dropped. -/
def State.dropOwnHold (s : State) (n : CtxNum) (ch : ChanNum) : State :=
  if (s.ctx n).holder = some ch then s.dropHold n ch else s

/-- R18: the quay and the stack give the context up: its slots, its place in the load, its place in the due list. -/
def State.leaveQuay (s : State) (n : CtxNum) : State :=
  let serving := (s.ctx n).serving
  let target := (s.ctx n).target
  let s := s.forCrane n fun s =>
    (s.onHead serving fun s h => s.freeActive h n).onHead target fun s h => s.freePending h n
  let s := s.onHead serving State.subLoad
  { s with dueList := s.dueList.filter (· ≠ n) }

/-- R19: the Context Store frees the record in the next generation and appends its number to the free list. -/
def State.freeRecord (s : State) (n : CtxNum) : State :=
  let c := s.ctx n
  let idMap := match c.identity with
    | some id => eraseId s.idMap id
    | none => s.idMap
  let craneCount := if c.cls = some .crane then s.craneCount - 1 else s.craneCount
  { s.setCtx n (Context.freeIn (c.gen + 1)) with
    idMap := idMap, craneCount := craneCount, freeList := s.freeList ++ [n] }

/-- R17 to R19. -/
def State.retirement (s : State) (ch : ChanNum) (f : Half) : State :=
  match ctxOf f with
  | none => s.finish ch retireCode .badField
  | some n =>
    if (s.ctx n).state = .free then s.finish ch retireCode .freeContext
    else if (s.ctx n).holder ≠ none ∧ (s.ctx n).holder ≠ some ch then s.finish ch retireCode .held
    else ((((s.dropOwnHold n ch).answerGone n).leaveQuay n).freeRecord n).finish ch retireCode .done

/-! ## The meanings -/

/-- ADMIT (R12 to R15). -/
def execAdmit (ch : ChanNum) (b : Body AdmitFields) (s : State) : Host.Outcome State Fault Refusal :=
  .next (s.takeRequest ch admitCode b fun f s => s.admission ch f)

/-- RETIRE (R17 to R19). -/
def execRetire (ch : ChanNum) (b : Body Half) (s : State) : Host.Outcome State Fault Refusal :=
  .next (s.takeRequest ch retireCode b fun f s => s.retirement ch f)

end Sys2Proof.Machine
end

