-- ==== Sys2Proof/Machine/Control.lean ====
section
/-! DEFINITION. Parameters and events (sections 10.2 and 10.3), the reading of a slot plan (section 8.6), FLUSH, RESET_N,
the part clock (sections 10.4, 10.5), and the frames of the control link that are no request. -/

namespace Sys2Proof.Machine

open Sys2Proof

def planReadCode : Byte := 0x1C
def paramSetCode : Byte := 0x20
def paramReadCode : Byte := 0x21
def eventReadCode : Byte := 0x22
def eventSetupCode : Byte := 0x23
def flushCode : Byte := 0x24

/-! ## PLAN_READ (R139) -/

def State.planRead (s : State) (ch : ChanNum) (f : Byte) : State :=
  match headOf f with
  | some h => s.finish ch planReadCode (.recordPlan h (s.planItems h))
  | none => s.finish ch planReadCode .badField

/-! ## Parameters (R164) -/

/-- R164: the value is clamped to the parameter's range and stored. -/
def State.paramSet (s : State) (ch : ChanNum) (f : ParamSetFields) : State :=
  match paramOf f.parameter f.cls with
  | some sel =>
    let v := clamp sel.range.1 sel.range.2 f.value.toNat
    { s with params := s.params.put sel v }.finish ch paramSetCode (.value sel v)
  | none => s.finish ch paramSetCode .badField

/-- R164. -/
def State.paramRead (s : State) (ch : ChanNum) (f : ParamReadFields) : State :=
  match paramOf f.parameter f.cls with
  | some sel => s.finish ch paramReadCode (.value sel (s.params.get sel))
  | none => s.finish ch paramReadCode .badField

/-! ## Events (R167, R168) -/

/-- R167: the class read is no longer pending; its subject stays. -/
def State.eventRead (s : State) (ch : ChanNum) : State :=
  match s.chosenEvent with
  | some c =>
    (s.setEvent c { s.eventRec c with pending := false }).finish ch eventReadCode
      (.event c (s.eventRec c).subject s.clock)
  | none => s.finish ch eventReadCode (.noEvent s.clock)

/-- R168: the level is clamped; the pending mark and the subject are not changed. -/
def State.eventSetup (s : State) (ch : ChanNum) (f : EventSetupFields) : State :=
  match eventOf f.cls, markOf f.masked with
  | some c, some masked =>
    let level := clamp 0 7 f.level.toNat
    (s.setEvent c { s.eventRec c with level := level, masked := masked }).finish ch eventSetupCode
      (.doneEvent c level masked)
  | _, _ => s.finish ch eventSetupCode .badField

/-! ## FLUSH (R171) -/

/-- R22: a context that is not FREE is freed in its next generation. -/
def Context.flushed (c : Context) : Context := if c.state = .free then c else Context.freeIn (c.gen + 1)

/-- R39: every hold is dropped. A channel other than the requesting one that is PARKED or SWEEPING becomes IDLE with
nothing parked and no sweep; a BUSY one keeps its request. -/
def Channel.flushed (c : Channel) (requesting : Bool) : Channel :=
  let c := { c with held := none, holdAt := none }
  if requesting then c
  else
    match c.state with
    | .parked | .sweeping =>
      { c with state := .idle, parkedOn := none, parkAt := none, sweep := none, idleAt := none }
    | .idle | .busy => c

/-- R39: the CANCELLED answers to the other channels that are PARKED, in ascending channel number. -/
def State.cancelParked (s : State) (ch : ChanNum) : State :=
  (List.finRange 4).foldl
    (fun s c => if c ≠ ch ∧ (s.chan c).state = .parked then s.answer c fetchCode .cancelled else s) s

/-- R22, R39, R65, R84, R98, R117, R141, R158: the one change of a FLUSH, to all the records it bears on. -/
def State.emptied (s : State) (ch : ChanNum) : State :=
  { s with
    contexts := s.contexts.map Context.flushed
    idMap := []
    freeList := List.finRange 2048
    craneCount := 0
    waits := Vector.replicate 2048 []
    channels := s.channels.mapFinIdx fun i c hi => c.flushed (decide ((⟨i, hi⟩ : ChanNum) = ch))
    heads := s.heads.map fun r => { r with load := 0 }
    plans := Vector.replicate 16 Plan.allFree
    dueList := [] }

/-- R141: PLAN_CLEAR to each head in service. -/
def State.clearPlans (s : State) : State :=
  (List.finRange 16).foldl (fun s h => s.sendHead h .planClear) s

/-- R171: the CANCELLED answers first, then the PLAN_CLEAR messages, then DONE. -/
def State.flushRequest (s : State) (ch : ChanNum) : State :=
  (((s.cancelParked ch).emptied ch).clearPlans).finish ch flushCode .done

/-! ## The part clock (R169) -/

/-- R169: the count goes up by 1 and wraps from 2^32 − 1 to 0. -/
def State.tick (s : State) : State := { s with clock := s.clock + 1 }

/-! ## RESET_N (R170) -/

/-- R170: while RESET_N is low nothing is taken or sent, no request is outstanding, no frame waits and no deadline runs.
The model holds every record at its reset value from the assertion on (log 4). The queue of commands and the
model's count of open values are outside the part. -/
def State.inReset (s : State) : State :=
  { State.reset with pending := s.pending, resetLow := true, openValues := s.openValues }

/-- R170: after the release every piece of state holds its reset value. Releasing a pin that is not low is no event
(log 5). -/
def State.released (s : State) : State :=
  if s.resetLow then { State.reset with pending := s.pending, openValues := s.openValues } else s

/-! ## A frame without a code (R176) -/

/-- R159, R176: a frame without a code on a channel that is not IDLE is turned away. Its echo is the next open value
(log 6). -/
def State.answerOpenEcho (s : State) (ch : ChanNum) : State :=
  { s.answer ch (Config.noCodeBusyEcho s.openValues) .channelBusy with openValues := s.openValues + 1 }

/-! ## The meanings -/

/-- PLAN_READ (R139). -/
def execPlanRead (ch : ChanNum) (b : Body Byte) (s : State) : Host.Outcome State Fault Refusal :=
  .next (s.takeRequest ch planReadCode b fun f s => s.planRead ch f)

/-- PARAM_SET (R164). -/
def execParamSet (ch : ChanNum) (b : Body ParamSetFields) (s : State) : Host.Outcome State Fault Refusal :=
  .next (s.takeRequest ch paramSetCode b fun f s => s.paramSet ch f)

/-- PARAM_READ (R164). -/
def execParamRead (ch : ChanNum) (b : Body ParamReadFields) (s : State) : Host.Outcome State Fault Refusal :=
  .next (s.takeRequest ch paramReadCode b fun f s => s.paramRead ch f)

/-- EVENT_READ (R167). -/
def execEventRead (ch : ChanNum) (b : Body Unit) (s : State) : Host.Outcome State Fault Refusal :=
  .next (s.takeRequest ch eventReadCode b fun _ s => s.eventRead ch)

/-- EVENT_SETUP (R168). -/
def execEventSetup (ch : ChanNum) (b : Body EventSetupFields) (s : State) : Host.Outcome State Fault Refusal :=
  .next (s.takeRequest ch eventSetupCode b fun f s => s.eventSetup ch f)

/-- FLUSH (R171). -/
def execFlush (ch : ChanNum) (b : Body Unit) (s : State) : Host.Outcome State Fault Refusal :=
  .next (s.takeRequest ch flushCode b fun _ s => s.flushRequest ch)

/-- ILLEGAL (R159, R160): a code that names no request is answered ILLEGAL on an IDLE channel and turned away on any other.
A term whose code names a request is no such frame (log 9). -/
def execIllegal (ch : ChanNum) (code : Byte) (s : State) : Host.Outcome State Fault Refusal :=
  if Instr.requestCodes.contains code then .refused .illFormed
  else .next (s.takeRequest ch code (.fields ()) fun _ s => s.finish ch code .illegal)

/-- NO_CODE_REQUEST_FRAME (R176, R177): BAD_FIELD with echoed code 0x00 on an IDLE channel, CHANNEL_BUSY on any other with
an echo the spec does not state (log 6). -/
def execNoCodeRequestFrame (ch : ChanNum) (s : State) : Host.Outcome State Fault Refusal :=
  .next (s.whileRunning fun s =>
    match (s.chan ch).state with
    | .idle => (s.setChanState ch .busy).finish ch 0x00 .badField
    | .busy | .parked | .sweeping => s.answerOpenEcho ch)

/-- CHANNEL_DISCARD (R176): discarded without an answer. A term whose channel exists is no such frame (log 9). -/
def execChannelDiscard (channel : Byte) (s : State) : Host.Outcome State Fault Refusal :=
  if 3 < channel.toNat then .next s else .refused .illFormed

/-- FRAME_DISCARD (R174): a discarded frame has no effect. -/
def execFrameDiscard (_l : Link) (s : State) : Host.Outcome State Fault Refusal := .next s

/-- RESET_N_ASSERT (R170). -/
def execResetAssert (s : State) : Host.Outcome State Fault Refusal := .next s.inReset

/-- RESET_N_RELEASE (R170). -/
def execResetRelease (s : State) : Host.Outcome State Fault Refusal := .next s.released

/-- PART_CLOCK_TICK (R169): the clock counts from the release of RESET_N on. -/
def execPartClockTick (s : State) : Host.Outcome State Fault Refusal := .next (s.whileRunning State.tick)

end Sys2Proof.Machine
end

