-- ==== Sys2Proof/Machine/Records.lean ====
section
/-! DEFINITION. Reading and changing records (sections 2.2 to 2.6): FIND, READ, UPDATE, FETCH, STORE, RELEASE, CANCEL, and
the expiries of the hold and park deadlines. -/

namespace Sys2Proof.Machine

open Sys2Proof

def findCode : Byte := 0x03
def readCode : Byte := 0x04
def updateCode : Byte := 0x05
def storeCode : Byte := 0x07
def releaseCode : Byte := 0x08
def cancelCode : Byte := 0x09

/-! ## Finding and reading (R25, R26) -/

/-- R25. -/
def State.findRequest (s : State) (ch : ChanNum) (id : Identity) : State :=
  match lookupId s.idMap id with
  | some n => s.finish ch findCode (.found n (s.tag n) (s.ctx n).state (s.ctx n).owner)
  | none => s.finish ch findCode .absentId

/-- R26. -/
def State.readRequest (s : State) (ch : ChanNum) (f : Half) : State :=
  match ctxOf f with
  | none => s.finish ch readCode .badField
  | some n =>
    if (s.ctx n).state = .free then s.finish ch readCode .freeContext
    else s.finish ch readCode (.recordContext (s.readOut n false))

/-! ## Field sets (R27, R28, R133) -/

/-- R27: how a field set is judged against a context: the refusal of the first check that fails, or the applied values. -/
def State.judge (s : State) (n : CtxNum) (set : FieldSet) : Except Reply Applied :=
  let c := s.ctx n
  let a := appliedSet set
  if (match c.cls with | some cls => setBelongs set cls | none => false) = false then .error .badField
  else
    match a.slotCount with
    | none => .ok a
    | some k' =>
      if k' ≠ c.slotNeed ∧ c.state = .moving then .error .state
      else if c.slotNeed < k' then
        match c.serving with
        | some h => if s.freeCount h < k' - c.slotNeed then .error .noSlots else .ok a
        | none => .ok a
      else .ok a

/-- R133: a new slot count reserves further slots on the serving head, or frees the crane's highest-numbered ones there. -/
def State.resizeSlots (s : State) (n : CtxNum) (old new : Nat) : State :=
  match (s.ctx n).serving with
  | none => s
  | some h =>
    if old < new then s.reserveActive h n (new - old)
    else if new < old then
      let mine := (s.plan h).slotsWith (.active n)
      s.setSlots h (mine.drop (mine.length - (old - new))) .free
    else s

/-- R28, R133: the slot count of a crane is stored and its slots follow. -/
def State.writeSlotCount (s : State) (n : CtxNum) (a : Applied) : State :=
  match a.slotCount, (s.ctx n).crane with
  | some k', some part =>
    (s.setCtx n { s.ctx n with crane := some { part with k := k' } }).resizeSlots n part.k k'
  | _, _ => s

/-- R28: all the fields of a set are applied together. -/
def State.applyFields (s : State) (n : CtxNum) (a : Applied) : State :=
  let s := s.setCtx n { s.ctx n with owner := a.owner.getD (s.ctx n).owner }
  (s.writeProfile n a).writeSlotCount n a

/-- R29. -/
def State.updateRequest (s : State) (ch : ChanNum) (f : WriteFields) : State :=
  match ctxOf f.context with
  | none => s.finish ch updateCode .badField
  | some n =>
    if (s.ctx n).state = .free then s.finish ch updateCode .freeContext
    else if (s.ctx n).holder ≠ none ∧ (s.ctx n).holder ≠ some ch then s.finish ch updateCode .held
    else
      match s.judge n f.set with
      | .error r => s.finish ch updateCode r
      | .ok a => (s.applyFields n a).finish ch updateCode (.doneFields a)

/-! ## Holds (R30 to R34) -/

/-- R31: the channel is parked at the tail of the wait list, with no answer yet. -/
def State.park (s : State) (ch : ChanNum) (n : CtxNum) : State :=
  let s := s.setChan ch { s.chan ch with
    state := .parked, parkedOn := some n, parkAt := some (after s.clock s.params.holdLimit) }
  s.setWait n (s.wait n ++ [ch])

/-- R30. The read-out is taken after the holder is set. -/
def State.fetchRequest (s : State) (ch : ChanNum) (f : Half) : State :=
  match ctxOf f with
  | none => s.finish ch fetchCode .badField
  | some n =>
    if (s.chan ch).held ≠ none then s.finish ch fetchCode .holding
    else if (s.ctx n).state = .free then s.finish ch fetchCode .freeContext
    else
      match (s.ctx n).holder with
      | none =>
        let s := s.grantHold n ch
        s.finish ch fetchCode (.recordContext (s.readOut n true))
      | some _ => s.park ch n

/-- R33. A refused field set leaves the hold and its deadline; an accepted one is applied, the hold is dropped, DONE is
answered, and the oldest parked channel is granted. -/
def State.storeRequest (s : State) (ch : ChanNum) (f : WriteFields) : State :=
  match ctxOf f.context with
  | none => s.finish ch storeCode .badField
  | some n =>
    if (s.chan ch).held ≠ some n then s.finish ch storeCode .notHeld
    else
      match s.judge n f.set with
      | .error r => s.finish ch storeCode r
      | .ok a => (((s.applyFields n a).dropHold n ch).finish ch storeCode (.doneFields a)).handOn n

/-- R34. -/
def State.releaseRequest (s : State) (ch : ChanNum) (f : Half) : State :=
  match ctxOf f with
  | none => s.finish ch releaseCode .badField
  | some n =>
    if (s.chan ch).held ≠ some n then s.finish ch releaseCode .notHeld
    else ((s.dropHold n ch).finish ch releaseCode .done).handOn n

/-! ## Expiry and cancellation (R35 to R37) -/

/-- R35: the hold deadline of a channel is reached. The channel's state is not changed. -/
def State.holdExpiry (s : State) (ch : ChanNum) : State :=
  match (s.chan ch).held with
  | some n =>
    if expired s.clock (s.chan ch).holdAt then
      ((s.dropHold n ch).raise .holdExpired (.context n)).handOn n
    else s
  | none => s

/-- R36, R37: a parked channel leaves its wait list and its FETCH is answered. -/
def State.leaveWait (s : State) (ch : ChanNum) (n : CtxNum) (r : Reply) : State :=
  ((s.setWait n ((s.wait n).filter (· ≠ ch))).unpark ch).answer ch fetchCode r

/-- R36: the park deadline of a channel is reached. -/
def State.parkDeadline (s : State) (ch : ChanNum) : State :=
  match (s.chan ch).parkedOn with
  | some n => if expired s.clock (s.chan ch).parkAt then s.leaveWait ch n .timeout else s
  | none => s

/-- R37, R159, R160: CANCEL ends a parked FETCH with no answer of its own; on an IDLE channel it is answered STATE; on any
other it is turned away. A CANCEL refused for form leaves a PARKED channel as it was. A PARKED channel names the context it
is parked on (R23), so the case without it is not reached (log 10). -/
def State.cancelRequest (s : State) (ch : ChanNum) (b : Body Unit) : State :=
  match (s.chan ch).state, b with
  | .idle, .badForm => (s.setChanState ch .busy).finish ch cancelCode .badField
  | .idle, .fields _ => (s.setChanState ch .busy).finish ch cancelCode .state
  | .parked, .badForm => s.answer ch cancelCode .badField
  | .parked, .fields _ =>
    match (s.chan ch).parkedOn with
    | some n => s.leaveWait ch n .cancelled
    | none => s
  | .busy, _ | .sweeping, _ => s.answer ch cancelCode .channelBusy

/-! ## The meanings -/

/-- FIND (R25). -/
def execFind (ch : ChanNum) (b : Body Identity) (s : State) : Host.Outcome State Fault Refusal :=
  .next (s.takeRequest ch findCode b fun f s => s.findRequest ch f)

/-- READ (R26). -/
def execRead (ch : ChanNum) (b : Body Half) (s : State) : Host.Outcome State Fault Refusal :=
  .next (s.takeRequest ch readCode b fun f s => s.readRequest ch f)

/-- UPDATE (R27 to R29). -/
def execUpdate (ch : ChanNum) (b : Body WriteFields) (s : State) : Host.Outcome State Fault Refusal :=
  .next (s.takeRequest ch updateCode b fun f s => s.updateRequest ch f)

/-- FETCH (R30, R31). -/
def execFetch (ch : ChanNum) (b : Body Half) (s : State) : Host.Outcome State Fault Refusal :=
  .next (s.takeRequest ch fetchCode b fun f s => s.fetchRequest ch f)

/-- STORE (R33). -/
def execStore (ch : ChanNum) (b : Body WriteFields) (s : State) : Host.Outcome State Fault Refusal :=
  .next (s.takeRequest ch storeCode b fun f s => s.storeRequest ch f)

/-- RELEASE (R34). -/
def execRelease (ch : ChanNum) (b : Body Half) (s : State) : Host.Outcome State Fault Refusal :=
  .next (s.takeRequest ch releaseCode b fun f s => s.releaseRequest ch f)

/-- CANCEL (R37). -/
def execCancel (ch : ChanNum) (b : Body Unit) (s : State) : Host.Outcome State Fault Refusal :=
  .next (s.whileRunning fun s => s.cancelRequest ch b)

/-- HOLD_EXPIRY (R35). -/
def execHoldExpiry (ch : ChanNum) (s : State) : Host.Outcome State Fault Refusal :=
  .next (s.whileRunning fun s => s.holdExpiry ch)

/-- PARK_DEADLINE (R36). -/
def execParkDeadline (ch : ChanNum) (s : State) : Host.Outcome State Fault Refusal :=
  .next (s.whileRunning fun s => s.parkDeadline ch)

end Sys2Proof.Machine
end

