-- ==== Sys2Proof/Machine/Sweeps.lean ====
section
/-! DEFINITION. Sweeps (section 2.7): SWEEP, CONTINUE, STOP and the expiry of the idle deadline. -/

namespace Sys2Proof.Machine

open Sys2Proof

def sweepCode : Byte := 0x0A
def continueCode : Byte := 0x0B
def stopCode : Byte := 0x0C

/-! ## Matching (R41) -/

def ClassSet.has (s : ClassSet) : TermClass → Bool
  | .crane => s.crane
  | .reefer => s.reefer
  | .general => s.general

/-- The state FREE is in no state set (R40, R41). -/
def StateSet.has (s : StateSet) : CtxState → Bool
  | .free => false
  | .active => s.active
  | .moving => s.moving
  | .orphan => s.orphan
  | .silent => s.silent

def Indicators.isEmpty (i : Indicators) : Bool := !i.warm && !i.cold && !i.rising && !i.fault

/-- At least one indicator of the set is set. -/
def Indicators.meets (i j : Indicators) : Bool :=
  (i.warm && j.warm) || (i.cold && j.cold) || (i.rising && j.rising) || (i.fault && j.fault)

/-- R41: a record matches a filter. -/
def SweepFilter.accepts (f : SweepFilter) (c : Context) : Bool :=
  decide (c.state ≠ .free) &&
  (match c.cls with | some cls => f.classes.has cls | none => false) &&
  f.states.has c.state &&
  (match f.head with | some h => decide (c.serving = some h) | none => true) &&
  (f.conditions.isEmpty || (match c.reefer with | some r => f.conditions.meets r.ind | none => false))

/-! ## Blocks (R42) -/

def blockEntry (n : CtxNum) (c : Context) : BlockEntry :=
  { number := n, tag := tagOf c.gen n, cls := c.cls, state := c.state, owner := c.owner }

/-- R42: judge records one at a time, in ascending number, from number i onward; `room` more entries fit in the block. The
answer holds the entries, and the cursor when the block is not LAST. -/
def judgeFrom (f : SweepFilter) : Nat → Nat → List Context → List BlockEntry × Option CtxNum
  | _, _, [] => ([], none)
  | i, room, c :: l =>
    if f.accepts c then
      if room ≤ 1 then ([blockEntry (Fin.ofNat 2048 i) c], if l = [] then none else some (Fin.ofNat 2048 (i + 1)))
      else
        let r := judgeFrom f (i + 1) (room - 1) l
        (blockEntry (Fin.ofNat 2048 i) c :: r.1, r.2)
    else judgeFrom f (i + 1) room l

/-- R42: the next block of a sweep, from its cursor. -/
def State.nextBlock (s : State) (w : Sweep) : List BlockEntry × Option CtxNum :=
  judgeFrom w.filter w.cursor.val Config.blockSize (s.contexts.toList.drop w.cursor.val)

/-- R43: a block is answered; one that is not LAST leaves the channel SWEEPING with a new idle deadline, a LAST one leaves
it IDLE with no sweep. -/
def State.answerBlock (s : State) (ch : ChanNum) (code : Byte) (w : Sweep) : State :=
  let block := s.nextBlock w
  match block.2 with
  | none =>
    (s.setChan ch { s.chan ch with sweep := none, idleAt := none }).finish ch code (.block block.1 true)
  | some cursor =>
    (s.setChan ch { s.chan ch with
      state := .sweeping, sweep := some { w with cursor := cursor }
      idleAt := some (after s.clock s.params.holdLimit) }).answer ch code (.block block.1 false)

/-- R40. -/
def State.sweepRequest (s : State) (ch : ChanNum) (f : SweepFields) : State :=
  match filterOf f with
  | none => s.finish ch sweepCode .badField
  | some filter => s.answerBlock ch sweepCode { filter := filter, cursor := 0 }

/-- R43: CONTINUE on a SWEEPING channel: the idle deadline is cancelled, the channel becomes BUSY, and the next block is
produced. A SWEEPING channel has a sweep (R23), so the case without one is not reached (log 10). -/
def State.continueRequest (s : State) (ch : ChanNum) : State :=
  match (s.chan ch).sweep with
  | some w => (s.setChan ch { s.chan ch with state := .busy, idleAt := none }).answerBlock ch continueCode w
  | none => s

/-- R43: the filter, the cursor and the idle deadline are cleared and the channel becomes IDLE. -/
def State.endSweep (s : State) (ch : ChanNum) : State :=
  s.setChan ch { s.chan ch with state := .idle, sweep := none, idleAt := none }

/-- R43: STOP on a SWEEPING channel. -/
def State.stopRequest (s : State) (ch : ChanNum) : State := (s.endSweep ch).answer ch stopCode .done

/-- R43: the idle deadline of a SWEEPING channel is reached: the sweep ends without an answer or an event. -/
def State.idleDeadline (s : State) (ch : ChanNum) : State :=
  if (s.chan ch).state = .sweeping ∧ expired s.clock (s.chan ch).idleAt = true then s.endSweep ch else s

/-! ## The meanings -/

/-- SWEEP (R40). -/
def execSweep (ch : ChanNum) (b : Body SweepFields) (s : State) : Host.Outcome State Fault Refusal :=
  .next (s.takeRequest ch sweepCode b fun f s => s.sweepRequest ch f)

/-- CONTINUE (R43). -/
def execContinue (ch : ChanNum) (b : Body Unit) (s : State) : Host.Outcome State Fault Refusal :=
  .next (s.takeOnSweeping ch continueCode b fun s => s.continueRequest ch)

/-- STOP (R43). -/
def execStop (ch : ChanNum) (b : Body Unit) (s : State) : Host.Outcome State Fault Refusal :=
  .next (s.takeOnSweeping ch stopCode b fun s => s.stopRequest ch)

/-- IDLE_DEADLINE (R43). -/
def execIdleDeadline (ch : ChanNum) (s : State) : Host.Outcome State Fault Refusal :=
  .next (s.whileRunning fun s => s.idleDeadline ch)

end Sys2Proof.Machine
end

