-- ==== Sys2Proof/Machine/Dispatch.lean ====
section
/-! DEFINITION. The dispatch: one arm per command, each one direct call of its meaning. -/

namespace Sys2Proof.Machine

def exec (i : Instr) (s : State) : Host.Outcome State Fault Refusal :=
  match i with
  | .admitReq ch b => Sys2Proof.Machine.execAdmit ch b s
  | .retire ch b => Sys2Proof.Machine.execRetire ch b s
  | .find ch b => Sys2Proof.Machine.execFind ch b s
  | .read ch b => Sys2Proof.Machine.execRead ch b s
  | .update ch b => Sys2Proof.Machine.execUpdate ch b s
  | .fetch ch b => Sys2Proof.Machine.execFetch ch b s
  | .store ch b => Sys2Proof.Machine.execStore ch b s
  | .release ch b => Sys2Proof.Machine.execRelease ch b s
  | .cancel ch b => Sys2Proof.Machine.execCancel ch b s
  | .sweep ch b => Sys2Proof.Machine.execSweep ch b s
  | .continueSweep ch b => Sys2Proof.Machine.execContinue ch b s
  | .stopSweep ch b => Sys2Proof.Machine.execStop ch b s
  | .headSet ch b => Sys2Proof.Machine.execHeadSet ch b s
  | .headEnable ch b => Sys2Proof.Machine.execHeadEnable ch b s
  | .headDisable ch b => Sys2Proof.Machine.execHeadDisable ch b s
  | .headRead ch b => Sys2Proof.Machine.execHeadRead ch b s
  | .survey ch b => Sys2Proof.Machine.execSurvey ch b s
  | .zoneSet ch b => Sys2Proof.Machine.execZoneSet ch b s
  | .zoneRead ch b => Sys2Proof.Machine.execZoneRead ch b s
  | .vesselSet ch b => Sys2Proof.Machine.execVesselSet ch b s
  | .vesselRead ch b => Sys2Proof.Machine.execVesselRead ch b s
  | .planRead ch b => Sys2Proof.Machine.execPlanRead ch b s
  | .paramSet ch b => Sys2Proof.Machine.execParamSet ch b s
  | .paramRead ch b => Sys2Proof.Machine.execParamRead ch b s
  | .eventRead ch b => Sys2Proof.Machine.execEventRead ch b s
  | .eventSetup ch b => Sys2Proof.Machine.execEventSetup ch b s
  | .flush ch b => Sys2Proof.Machine.execFlush ch b s
  | .illegal ch code => Sys2Proof.Machine.execIllegal ch code s
  | .channelDiscard channel => Sys2Proof.Machine.execChannelDiscard channel s
  | .frameDiscard l => Sys2Proof.Machine.execFrameDiscard l s
  | .keepalive h sample => Sys2Proof.Machine.execKeepalive h sample s
  | .arrival h tag sample position => Sys2Proof.Machine.execArrival h tag sample position s
  | .report h tag sample payload => Sys2Proof.Machine.execReport h tag sample payload s
  | .malformedHeadFrame h => Sys2Proof.Machine.execMalformedHeadFrame h s
  | .holdExpiry ch => Sys2Proof.Machine.execHoldExpiry ch s
  | .parkDeadline ch => Sys2Proof.Machine.execParkDeadline ch s
  | .idleDeadline ch => Sys2Proof.Machine.execIdleDeadline ch s
  | .linkLoss h => Sys2Proof.Machine.execLinkLoss h s
  | .settleDeadline h => Sys2Proof.Machine.execSettleDeadline h s
  | .surveyEndTime h => Sys2Proof.Machine.execSurveyEndTime h s
  | .lossDeadline n => Sys2Proof.Machine.execLossDeadline n s
  | .orphanDeadline n => Sys2Proof.Machine.execOrphanDeadline n s
  | .confirmationDeadline n => Sys2Proof.Machine.execConfirmationDeadline n s
  | .staleDeadline n h => Sys2Proof.Machine.execStaleDeadline n h s
  | .dueExpiry => Sys2Proof.Machine.execDueExpiry s
  | .resetAssert => Sys2Proof.Machine.execResetAssert s
  | .resetRelease => Sys2Proof.Machine.execResetRelease s
  | .partClockTick => Sys2Proof.Machine.execPartClockTick s
  | .noCodeRequestFrame ch => Sys2Proof.Machine.execNoCodeRequestFrame ch s

end Sys2Proof.Machine
end

