-- ==== Sys2Proof/WellFormed.lean ====
section
/-! DEFINITION. Which terms of `Instr` are commands that can reach the part. Every number of a command is bounded by its
type, or is a byte the part judges itself; two rows put a condition on their operand. -/

namespace Sys2Proof

/-- ILLEGAL carries a code that names no request (R160); CHANNEL_DISCARD carries a channel byte above 3 (R176). -/
def Instr.wf : Instr → Bool
  | .illegal _ code => !Instr.requestCodes.contains code
  | .channelDiscard channel => decide (3 < channel.toNat)
  | .admitReq _ _ | .retire _ _ | .find _ _ | .read _ _ | .update _ _ | .fetch _ _ | .store _ _ | .release _ _
  | .cancel _ _ | .sweep _ _ | .continueSweep _ _ | .stopSweep _ _ | .headSet _ _ | .headEnable _ _
  | .headDisable _ _ | .headRead _ _ | .survey _ _ | .zoneSet _ _ | .zoneRead _ _ | .vesselSet _ _
  | .vesselRead _ _ | .planRead _ _ | .paramSet _ _ | .paramRead _ _ | .eventRead _ _ | .eventSetup _ _
  | .flush _ _ | .frameDiscard _ | .keepalive _ _ | .arrival _ _ _ _ | .report _ _ _ _ | .malformedHeadFrame _
  | .holdExpiry _ | .parkDeadline _ | .idleDeadline _ | .linkLoss _ | .settleDeadline _ | .surveyEndTime _
  | .lossDeadline _ | .orphanDeadline _ | .confirmationDeadline _ | .staleDeadline _ _ | .dueExpiry
  | .resetAssert | .resetRelease | .partClockTick | .noCodeRequestFrame _ => true

end Sys2Proof
end

