-- ==== Sys2Proof/Decode.lean ====
section
/-! DEFINITION. From bytes to commands: the frame and its CRC (R174), the validation of head frames (R175) and of control
link frames (R176), and the request and head message layouts (R177, R178). The table gives no row any bits, so
`decodeTableWord` names no command; the commands of the model are those this file reads from frames, and the encoder
beside each reader writes the payload a sender gives it. -/

namespace Sys2Proof

/-! ## Fields (R173: high byte first) -/

def be16 (a b : Byte) : Half := a ++ b

def be32 (a b c d : Byte) : BitVec 32 := a ++ b ++ c ++ d

def be64 (a b c d e f g h : Byte) : BitVec 64 := a ++ b ++ c ++ d ++ e ++ f ++ g ++ h

/-- The two bytes of a field, high byte first (R173). -/
def bytes16 (w : Half) : List Byte := [w.extractLsb' 8 8, w.extractLsb' 0 8]

def bytes32 (w : BitVec 32) : List Byte :=
  [w.extractLsb' 24 8, w.extractLsb' 16 8, w.extractLsb' 8 8, w.extractLsb' 0 8]

def bytes64 (w : BitVec 64) : List Byte :=
  [w.extractLsb' 56 8, w.extractLsb' 48 8, w.extractLsb' 40 8, w.extractLsb' 32 8,
   w.extractLsb' 24 8, w.extractLsb' 16 8, w.extractLsb' 8 8, w.extractLsb' 0 8]

/-- A flag of a presence byte. -/
def flag (b : Bool) (i : Nat) : Byte := if b then BitVec.twoPow 8 i else 0

/-! ## Optional fields, one after another -/

def takeByte (present : Bool) : List Byte → Option (Option Byte × List Byte)
  | bs => if present then (match bs with | b :: r => some (some b, r) | [] => none) else some (none, bs)

def takeHalf (present : Bool) : List Byte → Option (Option Half × List Byte)
  | bs => if present then (match bs with | a :: b :: r => some (some (be16 a b), r) | _ => none) else some (none, bs)

def takeWord (present : Bool) : List Byte → Option (Option (BitVec 32) × List Byte)
  | bs =>
    if present then (match bs with | a :: b :: c :: d :: r => some (some (be32 a b c d), r) | _ => none)
    else some (none, bs)

/-- The fields under the presence byte of ADMIT, UPDATE and STORE: bit 0 owner reference, 1 slot count, 2 period, 3 band,
4 rise limit; no other bit may be set, and nothing may follow (R176, R177). -/
def parseSet (presence : Byte) (bs : List Byte) : Option FieldSet :=
  if presence.toNat < 32 then
    match takeWord (presence.getLsbD 0) bs with
    | none => none
    | some (owner, bs) =>
      match takeByte (presence.getLsbD 1) bs with
      | none => none
      | some (slotCount, bs) =>
        match takeHalf (presence.getLsbD 2) bs with
        | none => none
        | some (period, bs) =>
          match takeByte (presence.getLsbD 3) bs with
          | none => none
          | some (band, bs) =>
            match takeByte (presence.getLsbD 4) bs with
            | none => none
            | some (rise, bs) => if bs = [] then some { owner, slotCount, period, band, rise } else none
  else none

def optBytes8 : Option Byte → List Byte
  | none => []
  | some b => [b]

def optBytes16 : Option Half → List Byte
  | none => []
  | some w => bytes16 w

def optBytes32 : Option (BitVec 32) → List Byte
  | none => []
  | some w => bytes32 w

/-- The presence byte of a field set, and the fields in bit order (R177). -/
def encodeSet (s : FieldSet) : List Byte :=
  (flag s.owner.isSome 0 ||| flag s.slotCount.isSome 1 ||| flag s.period.isSome 2 ||| flag s.band.isSome 3 |||
    flag s.rise.isSome 4)
    :: (optBytes32 s.owner ++ optBytes8 s.slotCount ++ optBytes16 s.period ++ optBytes8 s.band ++ optBytes8 s.rise)

/-! ## Request payloads after the header (R177) -/

def parseNone : List Byte → Option Unit
  | [] => some ()
  | _ => none

def parseByte : List Byte → Option Byte
  | [b] => some b
  | _ => none

def parseHalf : List Byte → Option Half
  | [a, b] => some (be16 a b)
  | _ => none

def parseIdentity : List Byte → Option Identity
  | [a, b, c, d, e, f, g, h] => some (be64 a b c d e f g h)
  | _ => none

def parseAdmit : List Byte → Option AdmitFields
  | a :: b :: c :: d :: e :: f :: g :: h :: cls :: head :: sample :: presence :: rest =>
    (parseSet presence rest).map fun set => { identity := be64 a b c d e f g h, cls, head, sample, set }
  | _ => none

def parseWrite : List Byte → Option WriteFields
  | a :: b :: presence :: rest => (parseSet presence rest).map fun set => { context := be16 a b, set }
  | _ => none

def parseSweep : List Byte → Option SweepFields
  | [classSet, stateSet, condSet, head] => some { classSet, stateSet, condSet, head }
  | _ => none

/-- The position flag of HEAD_SET: R177 gives its size and no bit. DEDUCED (log 18): bit 0 marks the position present, as in
an ARRIVAL (R178), and it is the only bit defined (R176). A clear flag leaves the position field unchecked. -/
def parseHeadSet : List Byte → Option HeadSetFields
  | [head, side, f, p, q, c, d] =>
    if f.toNat < 2 then
      some { head, side, position := if f.getLsbD 0 then some (be16 p q) else none, capacity := be16 c d }
    else none
  | _ => none

def parseSurvey : List Byte → Option SurveyFields
  | [head, a, b] => some { head, duration := be16 a b }
  | _ => none

def parseZoneSet : List Byte → Option ZoneSetFields
  | [window, enabled, a, b, sizeCode, q0, q1, q2, q3] =>
    some { window, enabled, base := be16 a b, sizeCode, quarters := #v[q0, q1, q2, q3] }
  | _ => none

def parseVesselSet : List Byte → Option VesselSetFields
  | [window, enabled, a, b, c, d] => some { window, enabled, start := be16 a b, length := be16 c d }
  | _ => none

def parseParamRead : List Byte → Option ParamReadFields
  | [parameter, cls] => some { parameter, cls }
  | _ => none

def parseParamSet : List Byte → Option ParamSetFields
  | [parameter, cls, a, b, c, d] => some { parameter, cls, value := be32 a b c d }
  | _ => none

def parseEventSetup : List Byte → Option EventSetupFields
  | [cls, level, masked] => some { cls, level, masked }
  | _ => none

/-- A payload that its reader cannot take is refused for form by the request's meaning (R160). -/
def bodyOf {α : Type} : Option α → Body α
  | some f => .fields f
  | none => .badForm

/-- The command that a request code and the payload after the header spell on a channel (R176, R177). -/
def requestCommand (ch : ChanNum) (code : Byte) (bs : List Byte) : Instr :=
  match code.toNat with
  | 0x01 => .admitReq ch (bodyOf (parseAdmit bs))
  | 0x02 => .retire ch (bodyOf (parseHalf bs))
  | 0x03 => .find ch (bodyOf (parseIdentity bs))
  | 0x04 => .read ch (bodyOf (parseHalf bs))
  | 0x05 => .update ch (bodyOf (parseWrite bs))
  | 0x06 => .fetch ch (bodyOf (parseHalf bs))
  | 0x07 => .store ch (bodyOf (parseWrite bs))
  | 0x08 => .release ch (bodyOf (parseHalf bs))
  | 0x09 => .cancel ch (bodyOf (parseNone bs))
  | 0x0A => .sweep ch (bodyOf (parseSweep bs))
  | 0x0B => .continueSweep ch (bodyOf (parseNone bs))
  | 0x0C => .stopSweep ch (bodyOf (parseNone bs))
  | 0x10 => .headSet ch (bodyOf (parseHeadSet bs))
  | 0x11 => .headEnable ch (bodyOf (parseByte bs))
  | 0x12 => .headDisable ch (bodyOf (parseByte bs))
  | 0x13 => .headRead ch (bodyOf (parseByte bs))
  | 0x14 => .survey ch (bodyOf (parseSurvey bs))
  | 0x18 => .zoneSet ch (bodyOf (parseZoneSet bs))
  | 0x19 => .zoneRead ch (bodyOf (parseByte bs))
  | 0x1A => .vesselSet ch (bodyOf (parseVesselSet bs))
  | 0x1B => .vesselRead ch (bodyOf (parseByte bs))
  | 0x1C => .planRead ch (bodyOf (parseByte bs))
  | 0x20 => .paramSet ch (bodyOf (parseParamSet bs))
  | 0x21 => .paramRead ch (bodyOf (parseParamRead bs))
  | 0x22 => .eventRead ch (bodyOf (parseNone bs))
  | 0x23 => .eventSetup ch (bodyOf (parseEventSetup bs))
  | 0x24 => .flush ch (bodyOf (parseNone bs))
  | _ => .illegal ch code

/-- R176: a control link frame that has passed its CRC, judged by its channel byte and its code. (A frame has at least one
payload byte; the empty list is no frame and is discarded.) -/
def controlCommand : List Byte → Instr
  | [] => .frameDiscard .control
  | c :: rest =>
    if h : c.toNat < 4 then
      match rest with
      | [] => .noCodeRequestFrame ⟨c.toNat, h⟩
      | code :: bs => requestCommand ⟨c.toNat, h⟩ code bs
    else .channelDiscard c

/-! ## Head frames (R175, R178) -/

def parseReportKind (k : Byte) : Option ReportKind :=
  match k.toNat with
  | 0 => some .periodic
  | 1 => some .alarm
  | 2 => some .defrost
  | 3 => some .power
  | _ => none

def parseFaults (b : Byte) : Option FaultSet :=
  if b.toNat < 8 then
    some { compressor := b.getLsbD 0, sensor := b.getLsbD 1, powerOff := b.getLsbD 2 }
  else none

/-- R175: the kind, the fixed length, the flag and presence bytes, and the report's kind and fault set; a frame that fails
any of them is malformed. A field whose flag is clear is not checked. -/
def headCommand (h : HeadNum) : List Byte → Instr
  | [] => .frameDiscard (.head h)
  | kind :: rest =>
    match kind.toNat, rest with
    | 0x01, [f, x] => if f.toNat < 2 then .keepalive h (if f.getLsbD 0 then some x else none) else .malformedHeadFrame h
    | 0x02, [t, u, s, f, p, q] =>
      if f.toNat < 2 then .arrival h (be16 t u) s (if f.getLsbD 0 then some (be16 p q) else none)
      else .malformedHeadFrame h
    | 0x03, [t, u, s, sequence, k, presence, a, b, c, d, e, g, fs] =>
      match parseReportKind k, parseFaults fs with
      | some kind, some faults =>
        if presence.toNat < 8 then
          .report h (be16 t u) s
            { sequence, kind, faults
              supply := if presence.getLsbD 0 then some (be16 a b) else none
              ret := if presence.getLsbD 1 then some (be16 c d) else none
              setpoint := if presence.getLsbD 2 then some (be16 e g) else none }
        else .malformedHeadFrame h
      | _, _ => .malformedHeadFrame h
    | _, _ => .malformedHeadFrame h

/-- The command that the payload of a frame with a good CRC is, on the link it came in on. -/
def frameCommand : Link → List Byte → Instr
  | .control, p => controlCommand p
  | .head h, p => headCommand h p

/-! ## The frame (R174) -/

/-- One bit of the CRC: polynomial 0x1021, the most significant bit first. -/
def crcBit (crc : Half) (b : Bool) : Half :=
  if crc.msb ^^ b then (crc <<< 1) ^^^ 0x1021#16 else crc <<< 1

def crcByte (crc : Half) (b : Byte) : Half :=
  [7, 6, 5, 4, 3, 2, 1, 0].foldl (fun c i => crcBit c (b.getLsbD i)) crc

/-- R174: initial value 0xFFFF, no final inversion. -/
def crc (bs : List Byte) : Half := bs.foldl crcByte 0xFFFF#16

/-- The frame of a payload: sync, length, payload, CRC over the length byte and the payload (R174). -/
def frame (payload : List Byte) : List Byte :=
  let n : Byte := BitVec.ofNat 8 payload.length
  0xA5#8 :: n :: (payload ++ bytes16 (crc (n :: payload)))

/-- What a receiver makes of its bytes: each frame it completes is a payload that passed the CRC, or a discard. -/
inductive Received where
  | good (payload : List Byte)
  | discarded
  deriving DecidableEq, Repr

/-- The receiver of a link (R174): it skips to a sync byte; a length of 0 or above 250 discards the sync and resumes at the
length byte; a whole frame is judged by its CRC, and the search resumes after it. The answer holds the frames in order
and the bytes of a frame not yet complete. Every call uses up at least one byte, so the number of bytes is fuel enough. -/
def scan : Nat → List Byte → List Received × List Byte
  | 0, bs => ([], bs)
  | _ + 1, [] => ([], [])
  | fuel + 1, b :: bs =>
    if b = 0xA5#8 then
      match bs with
      | [] => ([], [b])
      | len :: rest =>
        if len.toNat = 0 ∨ 250 < len.toNat then
          let r := scan fuel (len :: rest)
          (.discarded :: r.1, r.2)
        else if rest.length < len.toNat + 2 then ([], b :: len :: rest)
        else
          let payload := rest.take len.toNat
          let r := scan fuel (rest.drop (len.toNat + 2))
          if bytes16 (crc (len :: payload)) = (rest.drop len.toNat).take 2 then (.good payload :: r.1, r.2)
          else (.discarded :: r.1, r.2)
    else scan fuel bs

def receiveFrames (bs : List Byte) : List Received × List Byte := scan bs.length bs

/-- The command of one received frame. -/
def Received.command (l : Link) : Received → Instr
  | .good p => frameCommand l p
  | .discarded => .frameDiscard l

/-! ## The sender's side: the payload of each command that is a frame with a good CRC -/

def reportKindByte : ReportKind → Byte
  | .periodic => 0
  | .alarm => 1
  | .defrost => 2
  | .power => 3

def faultsByte (f : FaultSet) : Byte := flag f.compressor 0 ||| flag f.sensor 1 ||| flag f.powerOff 2

/-- A request payload: the channel, the code and the fields; a payload refused for form is shown by one of a wrong length. -/
def encodeRequest {α : Type} (ch : ChanNum) (code : Byte) (enc : α → List Byte) (wrong : List Byte) : Body α → List Byte
  | .fields f => BitVec.ofNat 8 ch.val :: code :: enc f
  | .badForm => BitVec.ofNat 8 ch.val :: code :: wrong

def encodeOptHalf (w : Option Half) : List Byte := bytes16 (w.getD 0)

def encodeReport (tag : Half) (sample : Byte) (p : ReportPayload) : List Byte :=
  0x03#8 :: (bytes16 tag ++ [sample, p.sequence, reportKindByte p.kind,
    flag p.supply.isSome 0 ||| flag p.ret.isSome 1 ||| flag p.setpoint.isSome 2] ++
    encodeOptHalf p.supply ++ encodeOptHalf p.ret ++ encodeOptHalf p.setpoint ++ [faultsByte p.faults])

/-- The link and the payload of a command that comes in a frame with a good CRC; `none` for the commands that do not (a
discarded frame, an expiry, a pin, the clock). -/
def encodeCommand : Instr → Option (Link × List Byte)
  | .admitReq ch b => some (.control, encodeRequest ch 0x01 (fun f : AdmitFields =>
      bytes64 f.identity ++ [f.cls, f.head, f.sample] ++ encodeSet f.set) [] b)
  | .retire ch b => some (.control, encodeRequest ch 0x02 bytes16 [] b)
  | .find ch b => some (.control, encodeRequest ch 0x03 bytes64 [] b)
  | .read ch b => some (.control, encodeRequest ch 0x04 bytes16 [] b)
  | .update ch b => some (.control, encodeRequest ch 0x05 (fun f : WriteFields =>
      bytes16 f.context ++ encodeSet f.set) [] b)
  | .fetch ch b => some (.control, encodeRequest ch 0x06 bytes16 [] b)
  | .store ch b => some (.control, encodeRequest ch 0x07 (fun f : WriteFields =>
      bytes16 f.context ++ encodeSet f.set) [] b)
  | .release ch b => some (.control, encodeRequest ch 0x08 bytes16 [] b)
  | .cancel ch b => some (.control, encodeRequest ch 0x09 (fun _ : Unit => []) [0] b)
  | .sweep ch b => some (.control, encodeRequest ch 0x0A (fun f : SweepFields =>
      [f.classSet, f.stateSet, f.condSet, f.head]) [] b)
  | .continueSweep ch b => some (.control, encodeRequest ch 0x0B (fun _ : Unit => []) [0] b)
  | .stopSweep ch b => some (.control, encodeRequest ch 0x0C (fun _ : Unit => []) [0] b)
  | .headSet ch b => some (.control, encodeRequest ch 0x10 (fun f : HeadSetFields =>
      [f.head, f.side, flag f.position.isSome 0] ++ encodeOptHalf f.position ++ bytes16 f.capacity) [] b)
  | .headEnable ch b => some (.control, encodeRequest ch 0x11 (fun f : Byte => [f]) [] b)
  | .headDisable ch b => some (.control, encodeRequest ch 0x12 (fun f : Byte => [f]) [] b)
  | .headRead ch b => some (.control, encodeRequest ch 0x13 (fun f : Byte => [f]) [] b)
  | .survey ch b => some (.control, encodeRequest ch 0x14 (fun f : SurveyFields =>
      f.head :: bytes16 f.duration) [] b)
  | .zoneSet ch b => some (.control, encodeRequest ch 0x18 (fun f : ZoneSetFields =>
      [f.window, f.enabled] ++ bytes16 f.base ++ [f.sizeCode, f.quarters[0], f.quarters[1], f.quarters[2],
        f.quarters[3]]) [] b)
  | .zoneRead ch b => some (.control, encodeRequest ch 0x19 (fun f : Byte => [f]) [] b)
  | .vesselSet ch b => some (.control, encodeRequest ch 0x1A (fun f : VesselSetFields =>
      [f.window, f.enabled] ++ bytes16 f.start ++ bytes16 f.length) [] b)
  | .vesselRead ch b => some (.control, encodeRequest ch 0x1B (fun f : Byte => [f]) [] b)
  | .planRead ch b => some (.control, encodeRequest ch 0x1C (fun f : Byte => [f]) [] b)
  | .paramSet ch b => some (.control, encodeRequest ch 0x20 (fun f : ParamSetFields =>
      [f.parameter, f.cls] ++ bytes32 f.value) [] b)
  | .paramRead ch b => some (.control, encodeRequest ch 0x21 (fun f : ParamReadFields => [f.parameter, f.cls]) [] b)
  | .eventRead ch b => some (.control, encodeRequest ch 0x22 (fun _ : Unit => []) [0] b)
  | .eventSetup ch b => some (.control, encodeRequest ch 0x23 (fun f : EventSetupFields =>
      [f.cls, f.level, f.masked]) [] b)
  | .flush ch b => some (.control, encodeRequest ch 0x24 (fun _ : Unit => []) [0] b)
  | .illegal ch code => some (.control, [BitVec.ofNat 8 ch.val, code])
  | .channelDiscard channel => some (.control, [channel])
  | .noCodeRequestFrame ch => some (.control, [BitVec.ofNat 8 ch.val])
  | .keepalive h sample => some (.head h, [0x01, flag sample.isSome 0, sample.getD 0])
  | .arrival h tag sample position =>
      some (.head h, 0x02#8 :: (bytes16 tag ++ [sample, flag position.isSome 0] ++ encodeOptHalf position))
  | .report h tag sample payload => some (.head h, encodeReport tag sample payload)
  | .malformedHeadFrame h => some (.head h, [0x00])
  | .frameDiscard _ | .holdExpiry _ | .parkDeadline _ | .idleDeadline _ | .linkLoss _ | .settleDeadline _
  | .surveyEndTime _ | .lossDeadline _ | .orphanDeadline _ | .confirmationDeadline _ | .staleDeadline _ _ | .dueExpiry
  | .resetAssert | .resetRelease | .partClockTick => none

/-! ## The host's question -/

/-- spec/opcode_table.json gives no row any bits, so no word spells a command (log 11). -/
def decodeTableWord (_nbits _w : Nat) : Option Instr := none

end Sys2Proof
end

