-- ==== Sys2Proof/Machine/Wire.lean ====
section
/-! DEFINITION. The frames the part sends and the bytes it receives (chapter 11): the payload layouts of answers (R177) and
head messages (R178), the transmitters, and the receivers that turn bytes into waiting commands. -/

namespace Sys2Proof.Machine

open Sys2Proof

/-! ## Fields -/

def byteOf (n : Nat) : Byte := BitVec.ofNat 8 n

def halfBytes (n : Nat) : List Byte := bytes16 (BitVec.ofNat 16 n)

def wordBytes (n : Nat) : List Byte := bytes32 (BitVec.ofNat 32 n)

/-- R173: signed fields are in two's complement. -/
def signedBytes (x : Int) : List Byte := bytes16 (BitVec.ofInt 16 x)

def markByte (b : Bool) : Byte := if b then 1 else 0

/-- R173: a field that a record marks absent is sent as 0. -/
def optTime (t : Option Time) : List Byte := bytes32 (t.getD 0)

def optHeadZero (h : Option HeadNum) : Byte := byteOf ((h.map (·.val)).getD 0)

/-- R177, R178: a head byte of 0xFF means NONE or an absent head. -/
def headOrNone (h : Option HeadNum) : Byte :=
  match h with
  | some h => byteOf h.val
  | none => 0xFF

def ctxBytes (n : CtxNum) : List Byte := halfBytes n.val

/-! ## Common values (R177) -/

def TermClass.byte : TermClass → Byte
  | .crane => 0
  | .reefer => 1
  | .general => 2

def classByte (c : Option TermClass) : Byte :=
  match c with
  | some c => c.byte
  | none => 0

def CtxState.byte : CtxState → Byte
  | .free => 0
  | .active => 1
  | .moving => 2
  | .orphan => 3
  | .silent => 4

def SilentCause.byte : SilentCause → Byte
  | .linkLost => 0
  | .reportMissed => 1
  | .orphaned => 2

def Side.byte : Side → Byte
  | .unset => 0
  | .waterside => 1
  | .landside => 2

def LinkState.byte : LinkState → Byte
  | .absent => 0
  | .settling => 1
  | .standby => 2
  | .inService => 3

def Admin.byte : Admin → Byte
  | .enabled => 0
  | .disabled => 1

def SurveyState.byte : SurveyState → Byte
  | .idle => 0
  | .running => 1

def SurveyOutcome.byte : SurveyOutcome → Byte
  | .none => 0
  | .done => 1
  | .failed => 2
  | .aborted => 3

def Verdict.byte : Verdict → Byte
  | .accept => 0
  | .redirect => 1
  | .confirm => 2
  | .stale => 3
  | .defer => 4
  | .full => 5

/-- R177: parameters are numbered in the order of the table of R163. -/
def ParamSel.byte : ParamSel → Byte
  | .perClass .weight _ => 0
  | .perClass .hysteresis _ => 1
  | .perClass .ttt _ => 2
  | .perClass .confirmWindow _ => 3
  | .perClass .bonus _ => 4
  | .single .lossWindow => 5
  | .single .orphanLimit => 6
  | .single .grace => 7
  | .single .holdLimit => 8
  | .single .entryLifetime => 9
  | .single .driftLimit => 10

/-- The class byte of VALUE: DEDUCED (log 7), 0xFF for a parameter that is not per class, as in the request. -/
def ParamSel.classByte : ParamSel → Byte
  | .perClass _ c => c.byte
  | .single _ => 0xFF

def Subject.number : Subject → Nat
  | .head h => h.val
  | .context n => n.val

/-! ## Answers (R177) -/

/-- The presence byte of an applied field set, and its fields in bit order. -/
def Applied.bytes (a : Applied) : List Byte :=
  (flag a.owner.isSome 0 ||| flag a.slotCount.isSome 1 ||| flag a.period.isSome 2 ||| flag a.band.isSome 3 |||
    flag a.rise.isSome 4)
    :: (optBytes32 a.owner ++ (a.slotCount.map byteOf).toList ++
      (match a.period with | some p => halfBytes p | none => []) ++ (a.band.map byteOf).toList ++
      (a.rise.map byteOf).toList)

def CranePart.bytes (p : CranePart) : List Byte := byteOf p.k :: bytes16 (p.position.getD 0)

def indicatorsByte (i : Indicators) : Byte :=
  flag i.warm 0 ||| flag i.cold 1 ||| flag i.rising 2 ||| flag i.fault 3

def ReeferPart.bytes (r : ReeferPart) : List Byte :=
  halfBytes r.period ++ [byteOf r.band, byteOf r.rise] ++ bytes32 r.admitted ++ optTime r.due ++
    [r.lastSeq.getD 0] ++ optTime r.lastReport ++ signedBytes (r.supply.getD 0) ++ signedBytes (r.ret.getD 0) ++
    signedBytes (r.setpoint.getD 0) ++
    [faultsByte r.faults, (r.kind.map reportKindByte).getD 0, indicatorsByte r.ind]

def EntryOut.bytes (e : EntryOut) : List Byte :=
  byteOf e.head.val :: (signedBytes e.f ++ bytes32 e.last ++ [byteOf e.count])

def SlotOut.bytes (i : SlotOut) : List Byte :=
  [byteOf i.head.val, byteOf (i.slot.val + if i.pending then 128 else 0)]

/-- One bit of the 16-bit presence mask. -/
def maskBit (present : Bool) (i : Nat) : Half := if present then BitVec.twoPow 16 i else 0

/-- R177: bits 0 to 6 the common optional fields, bit 7 the last position, bits 8 to 14 the reefer's. -/
def ReadOut.mask (r : ReadOut) : Half :=
  maskBit r.serving.isSome 0 ||| maskBit r.target.isSome 1 ||| maskBit r.confirmAt.isSome 2 |||
  maskBit r.lossAt.isSome 3 ||| maskBit r.orphanAt.isSome 4 ||| maskBit r.cause.isSome 5 |||
  maskBit r.holder.isSome 6 ||| maskBit (r.crane.bind (·.position)).isSome 7 |||
  maskBit (r.reefer.bind (·.due)).isSome 8 ||| maskBit (r.reefer.bind (·.lastSeq)).isSome 9 |||
  maskBit (r.reefer.bind (·.lastReport)).isSome 10 ||| maskBit (r.reefer.bind (·.supply)).isSome 11 |||
  maskBit (r.reefer.bind (·.ret)).isSome 12 ||| maskBit (r.reefer.bind (·.setpoint)).isSome 13 |||
  maskBit (r.reefer.bind (·.kind)).isSome 14

/-- R177: the context read-out: fixed fields, common optional fields, the class part, measurements, slots. -/
def ReadOut.bytes (r : ReadOut) : List Byte :=
  ctxBytes r.number ++ [byteOf r.gen.toNat] ++ bytes16 r.tag ++ [r.state.byte] ++ bytes64 (r.identity.getD 0) ++
  [classByte r.cls] ++ bytes32 r.owner ++ [markByte r.held] ++ bytes16 r.mask ++
  [optHeadZero r.serving, optHeadZero r.target] ++ optTime r.confirmAt ++ optTime r.lossAt ++ optTime r.orphanAt ++
  [(r.cause.map SilentCause.byte).getD 0, byteOf ((r.holder.map (·.val)).getD 0)] ++
  (match r.crane with | some p => p.bytes | none => []) ++
  (match r.reefer with | some p => p.bytes | none => []) ++
  (byteOf r.entries.length :: r.entries.flatMap EntryOut.bytes) ++
  (byteOf r.slots.length :: r.slots.flatMap SlotOut.bytes)

/-- R177: the head read-out; presence bits 0 to 5 cover position, floor, I and the three deadlines. -/
def headBytes (h : HeadNum) (r : Head) : List Byte :=
  [byteOf h.val, r.link.byte, r.admin.byte, r.side.byte,
    flag r.position.isSome 0 ||| flag r.floor.isSome 1 ||| flag r.idle.isSome 2 ||| flag r.silenceAt.isSome 3 |||
      flag r.settleAt.isSome 4 ||| flag r.surveyEnd.isSome 5] ++
  bytes16 (r.position.getD 0) ++ halfBytes r.capacity ++ halfBytes r.load ++ [byteOf (r.floor.getD 0)] ++
  signedBytes (r.idle.getD 0) ++ [markByte r.resurvey] ++ optTime r.silenceAt ++ optTime r.settleAt ++
  [r.survey.byte] ++ optTime r.surveyEnd ++ wordBytes r.samples ++ wordBytes r.sampleSum ++ [r.outcome.byte]

def zoneBytes (w : Fin 8) (z : ZoneWindow) : List Byte :=
  [byteOf w.val, markByte z.enabled] ++ bytes16 z.base ++ [byteOf z.sizeCode.val] ++ z.quarters.toList.map headOrNone

def vesselBytes (w : Fin 4) (v : VesselWindow) : List Byte :=
  [byteOf w.val, markByte v.enabled] ++ bytes16 v.start ++ halfBytes v.length

/-- R177: entry 0 free, 1 active, 2 pending; a free slot names no context and no tag, sent as 0 (R173). -/
def PlanItem.bytes (i : PlanItem) : List Byte :=
  byteOf i.slot.val ::
    ((match i.use with
      | .free => 0 :: ctxBytes 0
      | .active n => 1 :: ctxBytes n
      | .pending n => 2 :: ctxBytes n) ++ bytes16 (i.tag.getD 0))

def BlockEntry.bytes (e : BlockEntry) : List Byte :=
  ctxBytes e.number ++ bytes16 e.tag ++ [classByte e.cls, e.state.byte] ++ bytes32 e.owner

/-- R177: the answer codes. -/
def Reply.code : Reply → Byte
  | .done | .doneFields _ | .doneValue _ | .doneEvent _ _ _ => 0x00
  | .admitted _ _ _ => 0x01
  | .already _ => 0x02
  | .found _ _ _ _ => 0x03
  | .recordContext _ | .recordHead _ _ | .recordZone _ _ | .recordVessel _ _ | .recordPlan _ _ => 0x04
  | .block _ _ => 0x05
  | .value _ _ => 0x07
  | .event _ _ _ => 0x08
  | .noEvent _ => 0x09
  | .freeContext => 0x0A
  | .absentId => 0x0B
  | .noContext => 0x0C
  | .craneLimit => 0x0D
  | .headUnavailable => 0x0E
  | .headFull => 0x0F
  | .noSlots => 0x10
  | .held => 0x11
  | .holding => 0x12
  | .notHeld => 0x13
  | .gone => 0x14
  | .timeout => 0x15
  | .cancelled => 0x16
  | .channelBusy => 0x17
  | .illegal => 0x18
  | .badField => 0x19
  | .state => 0x1A
  | .align => 0x1B
  | .overlap => 0x1C

/-- R177: the payload of each answer after its header. -/
def Reply.bytes : Reply → List Byte
  | .doneFields a => a.bytes
  | .doneValue v => halfBytes v
  | .doneEvent c level masked => [byteOf c.num.val, byteOf level, markByte masked]
  | .admitted n tag a => ctxBytes n ++ bytes16 tag ++ a.bytes
  | .already n => ctxBytes n
  | .found n tag st owner => ctxBytes n ++ bytes16 tag ++ [st.byte] ++ bytes32 owner
  | .recordContext r => r.bytes
  | .recordHead h r => headBytes h r
  | .recordZone w z => zoneBytes w z
  | .recordVessel w v => vesselBytes w v
  | .recordPlan h items => byteOf h.val :: items.flatMap PlanItem.bytes
  | .block entries last => [byteOf entries.length, markByte last] ++ entries.flatMap BlockEntry.bytes
  | .value p v => [p.byte, p.classByte] ++ wordBytes v
  | .event c subject clock =>
    byteOf c.num.val :: (halfBytes ((subject.map Subject.number).getD 0) ++ bytes32 clock)
  | .noEvent clock => bytes32 clock
  | .done | .freeContext | .absentId | .noContext | .craneLimit | .headUnavailable | .headFull | .noSlots | .held
  | .holding | .notHeld | .gone | .timeout | .cancelled | .channelBusy | .illegal | .badField | .state | .align
  | .overlap => []

/-- R177: the channel byte, the code of the request answered, the answer code, and the payload. -/
def Answer.payload (a : Answer) : List Byte :=
  byteOf a.channel.val :: a.echo :: a.reply.code :: a.reply.bytes

/-! ## Head messages (R178) -/

def HeadMsg.payload : HeadMsg → List Byte
  | .answer tag verdict head => 0x81#8 :: (bytes16 tag ++ [verdict.byte, headOrNone head])
  | .order tag target slots =>
    0x82#8 :: (bytes16 tag ++ [byteOf target.val, byteOf slots.length] ++ slots.map fun i => byteOf i.val)
  | .plan slot .free => [0x83, byteOf slot.val, 0, 0, 0]
  | .plan slot (.active tag) => 0x83#8 :: byteOf slot.val :: 1 :: bytes16 tag
  | .plan slot (.pending tag) => 0x83#8 :: byteOf slot.val :: 2 :: bytes16 tag
  | .planClear => [0x84]
  | .surveyBegin duration => 0x85#8 :: halfBytes duration
  | .surveyEnd => [0x86]

/-! ## The transmitters -/

/-- R161, R174: the oldest waiting frame of every link goes out. The lines hold the bytes of the frame sent, and nothing
where none waits. This is what an idle step does: DESIGN CHOICE (log 3). -/
def State.transmit (s : State) : State :=
  { s with
    controlLine := match s.controlTx with
      | [] => []
      | a :: _ => frame a.payload
    controlTx := s.controlTx.tail
    headLines := s.headTx.map fun l => match l with
      | [] => []
      | m :: _ => frame m.payload
    headTx := s.headTx.map List.tail }

/-! ## The receivers -/

/-- R174 to R176: bytes arrive on the control link; the frames they complete become waiting commands in order. While RESET_N
is low the receivers take nothing (R170). -/
def State.receiveControl (s : State) (bs : List Byte) : State :=
  s.whileRunning fun s =>
    let r := receiveFrames (s.controlRx ++ bs)
    { s with controlRx := r.2, pending := s.pending ++ r.1.map (Received.command .control) }

/-- A frame that a receiver has completed on a head link: a frame with a good CRC counts as presence at once (R175), and it
waits to be taken (log 19). -/
def State.frameArrives (s : State) (h : HeadNum) : Received → State
  | .good _ => { s.presence h with counted := s.counted.set h (s.counted[h] + 1) }
  | .discarded => s

/-- R174, R175: bytes arrive on a head link. The frames they complete count as presence as they arrive, and become waiting
commands in order. -/
def State.receiveHead (s : State) (h : HeadNum) (bs : List Byte) : State :=
  s.whileRunning fun s =>
    let r := receiveFrames (s.headRx[h] ++ bs)
    { r.1.foldl (fun s x => s.frameArrives h x) s with
      headRx := s.headRx.set h r.2
      pending := s.pending ++ r.1.map (Received.command (.head h)) }

end Sys2Proof.Machine
end

