-- ==== Sys2Proof/Safety.lean ====
section
/-! DEFINITION. What counts as a sound state of the part: the laws the spec states of the device, each a predicate on plain
data. Claims are stated in these terms. -/

namespace Sys2Proof.Machine

open Sys2Proof

/-! ## Parameters, windows and events -/

/-- R163: every parameter lies in its range. -/
def State.ParamsInRange (s : State) : Prop :=
  ∀ sel : ParamSel, sel.range.1 ≤ s.params.get sel ∧ s.params.get sel ≤ sel.range.2

/-- R119, R120: an enabled zone window is aligned on its size, and two enabled windows share no position. -/
def State.ZonesLawful (s : State) : Prop :=
  (∀ w : Fin 8, (s.zone w).enabled = true → (s.zone w).base.toNat % (s.zone w).size = 0) ∧
  ∀ v w : Fin 8, v ≠ w → (s.zone v).enabled = true → (s.zone w).enabled = true →
    ∀ p : Nat, ¬ ((s.zone v).holds p = true ∧ (s.zone w).holds p = true)

/-- R124: a vessel window's length is 1 to 65535. -/
def State.VesselsLawful (s : State) : Prop :=
  ∀ w : Fin 4, 1 ≤ (s.vessel w).length ∧ (s.vessel w).length ≤ 65535

/-- R165: a level is 0 to 7, and a pending class has a subject. -/
def State.EventsLawful (s : State) : Prop :=
  ∀ c : EventClass, (s.eventRec c).level ≤ 7 ∧ ((s.eventRec c).pending = true → (s.eventRec c).subject.isSome = true)

/-! ## Heads (R44, R49, R59) -/

/-- R44: which optional fields of a head record are present, and the ranges of its values. -/
def Head.Lawful (r : Head) : Prop :=
  (r.silenceAt.isSome = true ↔ r.link ≠ .absent) ∧
  (r.settleAt.isSome = true ↔ r.link = .settling) ∧
  (r.surveyEnd.isSome = true ↔ r.survey = .running) ∧
  (r.survey = .running → r.link = .standby ∨ r.link = .inService) ∧
  (r.idle.isSome = true ↔ r.floor.isSome = true) ∧
  (r.link = .absent ∨ r.link = .settling → r.floor = none) ∧
  (r.link = .inService → r.floor.isSome = true ∧ r.admin = .enabled) ∧
  (∀ f, r.floor = some f → f ≤ 255) ∧
  (∀ i, r.idle = some i → 0 ≤ i ∧ i ≤ 2040) ∧
  r.sampleSum ≤ 255 * r.samples ∧
  1 ≤ r.capacity ∧ r.capacity ≤ 2048

def State.HeadsLawful (s : State) : Prop := ∀ h : HeadNum, (s.headRec h).Lawful

/-! ## Contexts (R4) -/

/-- R1 to R3: a context in use has an identity and a class, and the class part of its class alone. -/
def Context.PartsLawful (c : Context) : Prop :=
  c.identity.isSome = true ∧ c.cls.isSome = true ∧
  (c.crane.isSome = true ↔ c.cls = some .crane) ∧ (c.reefer.isSome = true ↔ c.cls = some .reefer)

/-- R4: the table of the state-coupled fields. The holder of a FREE record is in `State.HoldsLawful`. -/
def Context.Lawful (c : Context) : Prop :=
  match c.state with
  | .free => c = { Context.freeIn c.gen with holder := c.holder }
  | .active =>
    c.PartsLawful ∧ c.serving.isSome = true ∧ c.target = none ∧ c.confirmAt = none ∧ c.orphanAt = none ∧
    c.cause = none ∧ (c.lossAt.isSome = true ↔ c.cls = some .crane) ∧ (c.due.isSome = true ↔ c.cls = some .reefer)
  | .moving =>
    c.PartsLawful ∧ c.target.isSome = true ∧ c.confirmAt.isSome = true ∧ c.orphanAt = none ∧ c.cause = none ∧
    (c.lossAt.isSome = true ↔ c.cls = some .crane) ∧ (c.due.isSome = true ↔ c.cls = some .reefer)
  | .orphan =>
    c.PartsLawful ∧ c.serving = none ∧ c.target = none ∧ c.confirmAt = none ∧ c.orphanAt.isSome = true ∧
    c.cause = none ∧ c.lossAt = none ∧ c.due = none
  | .silent =>
    c.PartsLawful ∧ c.target = none ∧ c.confirmAt = none ∧ c.orphanAt = none ∧ c.cause.isSome = true ∧
    c.lossAt = none ∧ c.due = none

def State.ContextsLawful (s : State) : Prop := ∀ n : CtxNum, (s.ctx n).Lawful

/-- R3, R142: the ranges of the class parts; R2: a slot count is 1 to 4. -/
def Context.ValuesInRange (c : Context) : Prop :=
  (∀ p, c.crane = some p → 1 ≤ p.k ∧ p.k ≤ 4) ∧
  (∀ r, c.reefer = some r →
    15 ≤ r.period ∧ r.period ≤ 3600 ∧ 1 ≤ r.band ∧ r.band ≤ 100 ∧ 1 ≤ r.rise ∧ r.rise ≤ 100 ∧
    (∀ t, r.supply = some t → -500 ≤ t ∧ t ≤ 500) ∧ (∀ t, r.ret = some t → -500 ≤ t ∧ t ≤ 500) ∧
    (∀ t, r.setpoint = some t → -500 ≤ t ∧ t ≤ 500) ∧ ¬ (r.ind.warm = true ∧ r.ind.cold = true))

def State.ValuesInRange (s : State) : Prop := ∀ n : CtxNum, (s.ctx n).ValuesInRange

/-! ## Measurement lists (R86, R89) -/

/-- R86, R89: at most 4 entries in strictly ascending order of head, every F within −512 to +1016, every trigger count at
most 15, and a stale deadline exactly while the entry is fresh. -/
def Context.EntriesLawful (c : Context) : Prop :=
  c.entries.length ≤ 4 ∧ c.entries.Pairwise (fun x y => x.head < y.head) ∧
  ∀ e ∈ c.entries, -512 ≤ e.f ∧ e.f ≤ 1016 ∧ e.count ≤ 15 ∧ (e.staleAt.isSome = true ↔ e.stale = false)

def State.EntriesLawful (s : State) : Prop := ∀ n : CtxNum, (s.ctx n).EntriesLawful

/-- R45, R86, R105: a serving head, a target head and the head of every entry are IN_SERVICE; a serving head has an entry;
a target differs from the serving head. -/
def State.RolesLawful (s : State) : Prop :=
  ∀ n : CtxNum,
    (∀ h, (s.ctx n).serving = some h → s.inService h = true ∧ ∃ e ∈ (s.ctx n).entries, e.head = h) ∧
    (∀ h, (s.ctx n).target = some h →
      s.inService h = true ∧ (s.ctx n).serving ≠ some h ∧ ∃ e ∈ (s.ctx n).entries, e.head = h) ∧
    (∀ e ∈ (s.ctx n).entries, s.inService e.head = true)

/-! ## The Context Store (R9 to R11) -/

/-- R10: the free list holds every FREE context number exactly once, and no other. -/
def State.FreeListLawful (s : State) : Prop :=
  s.freeList.Nodup ∧ ∀ n : CtxNum, n ∈ s.freeList ↔ (s.ctx n).state = .free

/-- R9: the identity map holds every context in use exactly once under its own identity, and no other; its keys rise. -/
def State.IdMapLawful (s : State) : Prop :=
  s.idMap.Pairwise (fun x y => x.1.toNat < y.1.toNat) ∧
  ∀ (id : Identity) (n : CtxNum), (id, n) ∈ s.idMap ↔ (s.ctx n).state ≠ .free ∧ (s.ctx n).identity = some id

/-- A crane in use. -/
def Context.isCrane (c : Context) : Bool := decide (c.state ≠ .free) && decide (c.cls = some .crane)

/-- R11: the crane count is the number of CRANE contexts in use, at most 64. -/
def State.CraneCountLawful (s : State) : Prop :=
  s.craneCount = s.contexts.toList.countP Context.isCrane ∧ s.craneCount ≤ 64

/-! ## Loads (R45) and slot plans (R128) -/

/-- R45: each head's load is the number of contexts that name it as serving head. -/
def State.LoadsLawful (s : State) : Prop :=
  ∀ h : HeadNum, (s.headRec h).load = s.contexts.toList.countP fun c => decide (c.serving = some h)

/-- R128: an active slot names a CRANE context served by the plan's head, and a pending slot a CRANE context whose target
the head is. -/
def State.SlotsNamed (s : State) : Prop :=
  ∀ (h : HeadNum) (i : SlotNum) (n : CtxNum),
    ((s.plan h)[i] = .active n → (s.ctx n).cls = some .crane ∧ (s.ctx n).serving = some h) ∧
    ((s.plan h)[i] = .pending n → (s.ctx n).cls = some .crane ∧ (s.ctx n).target = some h)

/-- R128: a CRANE context reserves exactly k active slots on its serving head and exactly k pending slots on its target. -/
def State.SlotsCounted (s : State) : Prop :=
  ∀ (n : CtxNum) (p : CranePart), (s.ctx n).crane = some p →
    (∀ h, (s.ctx n).serving = some h → ((s.plan h).slotsWith (.active n)).length = p.k) ∧
    (∀ h, (s.ctx n).target = some h → ((s.plan h).slotsWith (.pending n)).length = p.k)

/-! ## Channels, holds and wait lists (R23, R24) -/

/-- R23: which fields of a channel record are present. Between steps no channel is BUSY (log 1). -/
def Channel.Lawful (c : Channel) : Prop :=
  c.state ≠ .busy ∧
  (c.holdAt.isSome = true ↔ c.held.isSome = true) ∧
  (c.parkedOn.isSome = true ↔ c.state = .parked) ∧ (c.parkAt.isSome = true ↔ c.state = .parked) ∧
  (c.sweep.isSome = true ↔ c.state = .sweeping) ∧ (c.idleAt.isSome = true ↔ c.state = .sweeping)

def State.ChannelsLawful (s : State) : Prop := ∀ ch : ChanNum, (s.chan ch).Lawful

/-- R23, R24: holder and held context name each other; a FREE context has no holder; a wait list holds exactly the channels
parked on its context, once each; a parked channel holds nothing and waits on a context that another channel holds. -/
def State.HoldsLawful (s : State) : Prop :=
  (∀ (n : CtxNum) (ch : ChanNum), (s.ctx n).holder = some ch ↔ (s.chan ch).held = some n) ∧
  (∀ n : CtxNum, (s.ctx n).state = .free → (s.ctx n).holder = none) ∧
  (∀ n : CtxNum, (s.wait n).Nodup) ∧
  (∀ (n : CtxNum) (ch : ChanNum), ch ∈ s.wait n ↔ (s.chan ch).parkedOn = some n) ∧
  (∀ (n : CtxNum) (ch : ChanNum), (s.chan ch).parkedOn = some n →
    (s.chan ch).held = none ∧ (s.ctx n).holder.isSome = true)

/-! ## The due list (R150) -/

/-- R150: the due list holds each context with a due time exactly once, and nothing else. By R4 these are the REEFER
contexts in ACTIVE or MOVING. -/
def State.DueListLawful (s : State) : Prop :=
  s.dueList.Nodup ∧ ∀ n : CtxNum, n ∈ s.dueList ↔ (s.ctx n).due.isSome = true

/-- R150: the due list is in due-time order, ties by context number. -/
def State.DueListOrdered (s : State) : Prop := s.dueList.Pairwise fun a b => s.dueBefore a b = true

/-! ## All the laws -/

/-- Every law of the device at once. -/
structure State.Lawful (s : State) : Prop where
  params    : s.ParamsInRange
  zones     : s.ZonesLawful
  vessels   : s.VesselsLawful
  events    : s.EventsLawful
  heads     : s.HeadsLawful
  contexts  : s.ContextsLawful
  values    : s.ValuesInRange
  entries   : s.EntriesLawful
  roles     : s.RolesLawful
  freeList  : s.FreeListLawful
  idMap     : s.IdMapLawful
  cranes    : s.CraneCountLawful
  loads     : s.LoadsLawful
  named     : s.SlotsNamed
  counted   : s.SlotsCounted
  channels  : s.ChannelsLawful
  holds     : s.HoldsLawful
  dueList   : s.DueListLawful

/-! ## The words of the statements -/

/-- RESET_N is high and the channel is IDLE: a request on it is taken (R159). -/
def State.Ready (s : State) (ch : ChanNum) : Prop := s.resetLow = false ∧ (s.chan ch).state = .idle

/-- A plan after the slots of a list have taken a use, every other slot standing (R129, R130). -/
def Plan.fill (p : Plan) (l : List SlotNum) (u : SlotUse) : Plan :=
  Vector.ofFn fun i => if i ∈ l then u else p[i]

/-- The PLAN messages of a change, one for each slot of the list, in its order (R130). -/
def planMessages (l : List SlotNum) (e : PlanEntry) : List HeadMsg := l.map fun i => .plan i e

/-- The queues of the head links with messages appended on one link. -/
def queueOn (q : Vector (List HeadMsg) 16) (h : HeadNum) (l : List HeadMsg) : Vector (List HeadMsg) 16 :=
  q.set h (q[h] ++ l)

/-- R46, R47: the record of a head that has just been heard. -/
def Head.heard (r : Head) (now : Time) : Head :=
  { r with
    link := if r.link = .absent then .settling else r.link
    settleAt := if r.link = .absent then some (after now 100) else r.settleAt
    silenceAt := some (after now 30) }

/-- The state after a frame that counts as presence on a head's link was taken (R46, R47, R175): its presence was counted
when it arrived, or is counted now (log 19). -/
def State.hearing (s : State) (h : HeadNum) : State :=
  if s.counted[h] = 0 then { s with heads := s.heads.set h ((s.headRec h).heard s.clock) }
  else { s with counted := s.counted.set h (s.counted[h] - 1) }

/-- R173: a number in k bytes, high byte first. -/
def bigEndian (k n : Nat) : List Byte := (List.range k).map fun i => BitVec.ofNat 8 (n / 256 ^ (k - 1 - i))

/-- The number whose bits are a list of marks, bit 0 first. -/
def maskOf : List Bool → Nat
  | [] => 0
  | b :: l => b.toNat + 2 * maskOf l

/-- R173: the number in k bytes of a payload from place i on, high byte first. -/
def numberAt (bs : List Byte) (i k : Nat) : Nat := ((bs.drop i).take k).foldl (fun n b => 256 * n + b.toNat) 0

/-- R177: how many bytes the fields below bit i of the presence byte of ADMIT, UPDATE and STORE take: owner reference 4, slot
count 1, period 2, band 1, rise limit 1, each where its bit is set. -/
def fieldPlace (presence : Byte) (i : Nat) : Nat :=
  (([4, 1, 2, 1, 1].zipIdx.take i).map fun x => if presence.getLsbD x.2 then x.1 else 0).sum

/-- R177: the fields that follow a presence byte, in bit order. -/
def fieldsAt (presence : Byte) (bs : List Byte) : FieldSet :=
  let field := fun (i k : Nat) =>
    if presence.getLsbD i then some (numberAt bs (fieldPlace presence i) k) else none
  { owner := (field 0 4).map (BitVec.ofNat 32), slotCount := (field 1 1).map (BitVec.ofNat 8)
    period := (field 2 2).map (BitVec.ofNat 16), band := (field 3 1).map (BitVec.ofNat 8)
    rise := (field 4 1).map (BitVec.ofNat 8) }

/-- The record of a reefer context whose due time is set or cleared. -/
def Context.dueAt (c : Context) (t : Option Time) : Context :=
  { c with reefer := c.reefer.map fun r => { r with due := t } }

/-- R150: the state with a record rewritten and its context at the place in the due list that the record's due time
gives. -/
def State.placedInDueList (s : State) (n : CtxNum) (c : Context) : State :=
  let written : State := { s with contexts := s.contexts.set n c }
  { written with dueList := insertDue written.dueBefore n (s.dueList.filter (· ≠ n)) }

end Sys2Proof.Machine

namespace Sys2Proof

/-- R12, R27: every field of the set belongs to the class. -/
def FieldSet.Belongs (f : FieldSet) : Machine.TermClass → Prop
  | .crane => f.period = none ∧ f.band = none ∧ f.rise = none
  | .reefer => f.slotCount = none
  | .general => f.slotCount = none ∧ f.period = none ∧ f.band = none ∧ f.rise = none

/-- R12: the slot count an ADMIT applies. -/
def FieldSet.admitSlots (f : FieldSet) : Nat := max 1 (min 4 ((f.slotCount.map BitVec.toNat).getD 2))

/-! ## What a command is to the host -/

/-- The channel and the code of a command that is a request frame (R177). -/
def Instr.request : Instr → Option (ChanNum × Byte)
  | .admitReq ch _ => some (ch, 0x01)
  | .retire ch _ => some (ch, 0x02)
  | .find ch _ => some (ch, 0x03)
  | .read ch _ => some (ch, 0x04)
  | .update ch _ => some (ch, 0x05)
  | .fetch ch _ => some (ch, 0x06)
  | .store ch _ => some (ch, 0x07)
  | .release ch _ => some (ch, 0x08)
  | .cancel ch _ => some (ch, 0x09)
  | .sweep ch _ => some (ch, 0x0A)
  | .continueSweep ch _ => some (ch, 0x0B)
  | .stopSweep ch _ => some (ch, 0x0C)
  | .headSet ch _ => some (ch, 0x10)
  | .headEnable ch _ => some (ch, 0x11)
  | .headDisable ch _ => some (ch, 0x12)
  | .headRead ch _ => some (ch, 0x13)
  | .survey ch _ => some (ch, 0x14)
  | .zoneSet ch _ => some (ch, 0x18)
  | .zoneRead ch _ => some (ch, 0x19)
  | .vesselSet ch _ => some (ch, 0x1A)
  | .vesselRead ch _ => some (ch, 0x1B)
  | .planRead ch _ => some (ch, 0x1C)
  | .paramSet ch _ => some (ch, 0x20)
  | .paramRead ch _ => some (ch, 0x21)
  | .eventRead ch _ => some (ch, 0x22)
  | .eventSetup ch _ => some (ch, 0x23)
  | .flush ch _ => some (ch, 0x24)
  | .illegal ch code => some (ch, code)
  | .channelDiscard _ | .frameDiscard _ | .keepalive _ _ | .arrival _ _ _ _ | .report _ _ _ _ | .malformedHeadFrame _
  | .holdExpiry _ | .parkDeadline _ | .idleDeadline _ | .linkLoss _ | .settleDeadline _ | .surveyEndTime _
  | .lossDeadline _ | .orphanDeadline _ | .confirmationDeadline _ | .staleDeadline _ _ | .dueExpiry
  | .resetAssert | .resetRelease | .partClockTick | .noCodeRequestFrame _ => none

/-- The request's payload was refused for form (R160, R176). -/
def Instr.badlyFormed : Instr → Bool
  | .admitReq _ .badForm | .retire _ .badForm | .find _ .badForm | .read _ .badForm | .update _ .badForm
  | .fetch _ .badForm | .store _ .badForm | .release _ .badForm | .cancel _ .badForm | .sweep _ .badForm
  | .continueSweep _ .badForm | .stopSweep _ .badForm | .headSet _ .badForm | .headEnable _ .badForm
  | .headDisable _ .badForm | .headRead _ .badForm | .survey _ .badForm | .zoneSet _ .badForm | .zoneRead _ .badForm
  | .vesselSet _ .badForm | .vesselRead _ .badForm | .planRead _ .badForm | .paramSet _ .badForm
  | .paramRead _ .badForm | .eventRead _ .badForm | .eventSetup _ .badForm | .flush _ .badForm => true
  | _ => false

/-- R159: the requests that a PARKED and a SWEEPING channel take. -/
def Instr.takenIn (i : Instr) : Machine.ChanState → Bool
  | .idle => true
  | .busy => false
  | .parked => match i with | .cancel _ _ => true | _ => false
  | .sweeping => match i with | .continueSweep _ _ | .stopSweep _ _ => true | _ => false

end Sys2Proof
end

