-- ==== Sys2Proof/Certificates/Slice0/Obligations.lean ====
section
/-! DEFINITION. The statements for the provers. Each is about every state and every operand, and says what a command does
as an equation of its next state, so that what it leaves alone is said too. Request codes are those of R177. -/

section

open Sys2Proof Sys2Proof.Machine

/-! ## Steps, the reset pin, and the taking of requests -/

/-- A step takes the command at the front of the queue and carries it out on the state with the queue's rest. -/
def Obligations.StepTakesTheFrontCommand : Prop :=
  ∀ (c : Instr) (rest : List Instr) (s : State), s.pending = c :: rest → step s = exec c { s with pending := rest }

/-- The model's choice (log 3): with no command waiting, the oldest frame of every link goes out and nothing else
changes. R173: how fields are sent. R177: the common values, the answer codes, and the payload of every answer; the class
byte 0xFF of VALUE and the zeros of a free slot in a plan read-out are the model's (logs 7 and 17). R178: the payload of every
message to a head. -/
def Obligations.IdleStepSendsTheOldestFrames : Prop :=
  (∀ s : State, s.pending = [] →
    step s = .next { s with
      controlLine := ((s.controlTx.head?).map fun a => frame a.payload).getD []
      controlTx := s.controlTx.tail
      headLines := Vector.ofFn fun h => (((s.headTx[h]).head?).map fun x => frame x.payload).getD []
      headTx := Vector.ofFn fun h => (s.headTx[h]).tail }) ∧
  -- R173: fields
  (∀ w, bytes16 w = bigEndian 2 w.toNat) ∧ (∀ w, bytes32 w = bigEndian 4 w.toNat) ∧
  (∀ w, bytes64 w = bigEndian 8 w.toNat) ∧ (∀ n, halfBytes n = bigEndian 2 n) ∧ (∀ n, wordBytes n = bigEndian 4 n) ∧
  (∀ x : Int, signedBytes x = bigEndian 2 (x % 65536).toNat) ∧
  -- R177: common values
  (markByte false = 0 ∧ markByte true = 1) ∧
  [TermClass.crane, .reefer, .general].map TermClass.byte = [0, 1, 2] ∧
  [CtxState.free, .active, .moving, .orphan, .silent].map CtxState.byte = [0, 1, 2, 3, 4] ∧
  [SilentCause.linkLost, .reportMissed, .orphaned].map SilentCause.byte = [0, 1, 2] ∧
  [Side.unset, .waterside, .landside].map Side.byte = [0, 1, 2] ∧
  [LinkState.absent, .settling, .standby, .inService].map LinkState.byte = [0, 1, 2, 3] ∧
  [Admin.enabled, .disabled].map Admin.byte = [0, 1] ∧
  [SurveyState.idle, .running].map SurveyState.byte = [0, 1] ∧
  [SurveyOutcome.none, .done, .failed, .aborted].map SurveyOutcome.byte = [0, 1, 2, 3] ∧
  [ReportKind.periodic, .alarm, .defrost, .power].map reportKindByte = [0, 1, 2, 3] ∧
  [Verdict.accept, .redirect, .confirm, .stale, .defer, .full].map Verdict.byte = [0, 1, 2, 3, 4, 5] ∧
  [ParamSel.perClass .weight .crane, .perClass .hysteresis .crane, .perClass .ttt .crane, .perClass .confirmWindow .crane,
    .perClass .bonus .crane, .single .lossWindow, .single .orphanLimit, .single .grace, .single .holdLimit,
    .single .entryLifetime, .single .driftLimit].map ParamSel.byte = [0, 1, 2, 3, 4, 5, 6, 7, 8, 9, 10] ∧
  (∀ p c d, (ParamSel.perClass p c).byte = (ParamSel.perClass p d).byte ∧ (ParamSel.perClass p c).classByte = c.byte) ∧
  (∀ p, (ParamSel.single p).classByte = 0xFF) ∧
  (∀ f : FaultSet, faultsByte f = BitVec.ofNat 8 (maskOf [f.compressor, f.sensor, f.powerOff])) ∧
  (∀ i : Indicators, indicatorsByte i = BitVec.ofNat 8 (maskOf [i.warm, i.cold, i.rising, i.fault])) ∧
  -- R177: answers
  (∀ (ch : ChanNum) (echo : Byte),
    let sent := fun r => Answer.payload ⟨ch, echo, r⟩
    let answer := fun (code : Byte) (rest : List Byte) => BitVec.ofNat 8 ch.val :: echo :: code :: rest
    let number := fun {k : Nat} (n : Fin k) => BitVec.ofNat 8 n.val
    let time := fun t : Option Time => bytes32 (t.getD 0)
    let applied := fun a : Applied =>
      BitVec.ofNat 8 (maskOf [a.owner.isSome, a.slotCount.isSome, a.period.isSome, a.band.isSome, a.rise.isSome]) ::
        ((a.owner.map bytes32).getD [] ++ (a.slotCount.map fun k => [BitVec.ofNat 8 k]).getD [] ++
          (a.period.map halfBytes).getD [] ++ (a.band.map fun b => [BitVec.ofNat 8 b]).getD [] ++
          (a.rise.map fun b => [BitVec.ofNat 8 b]).getD [])
    [Reply.done, .freeContext, .absentId, .noContext, .craneLimit, .headUnavailable, .headFull, .noSlots, .held,
        .holding, .notHeld, .gone, .timeout, .cancelled, .channelBusy, .illegal, .badField, .state, .align,
        .overlap].map sent =
      [0x00, 0x0A, 0x0B, 0x0C, 0x0D, 0x0E, 0x0F, 0x10, 0x11, 0x12, 0x13, 0x14, 0x15, 0x16, 0x17, 0x18, 0x19, 0x1A,
        0x1B, 0x1C].map (fun code => answer code []) ∧
    (∀ a, sent (.doneFields a) = answer 0x00 (applied a)) ∧
    (∀ v, sent (.doneValue v) = answer 0x00 (halfBytes v)) ∧
    (∀ c level masked,
      sent (.doneEvent c level masked) = answer 0x00 [number c.num, BitVec.ofNat 8 level, markByte masked]) ∧
    (∀ n tag a, sent (.admitted n tag a) = answer 0x01 (halfBytes n.val ++ bytes16 tag ++ applied a)) ∧
    (∀ n, sent (.already n) = answer 0x02 (halfBytes n.val)) ∧
    (∀ n tag st owner,
      sent (.found n tag st owner) = answer 0x03 (halfBytes n.val ++ bytes16 tag ++ [st.byte] ++ bytes32 owner)) ∧
    (∀ r : ReadOut, sent (.recordContext r) = answer 0x04 (
      halfBytes r.number.val ++ [BitVec.ofNat 8 r.gen.toNat] ++ bytes16 r.tag ++ [r.state.byte] ++
      bytes64 (r.identity.getD 0) ++ [(r.cls.map TermClass.byte).getD 0] ++ bytes32 r.owner ++ [markByte r.held] ++
      halfBytes (maskOf [r.serving.isSome, r.target.isSome, r.confirmAt.isSome, r.lossAt.isSome, r.orphanAt.isSome,
        r.cause.isSome, r.holder.isSome, (r.crane.bind (·.position)).isSome, (r.reefer.bind (·.due)).isSome,
        (r.reefer.bind (·.lastSeq)).isSome, (r.reefer.bind (·.lastReport)).isSome, (r.reefer.bind (·.supply)).isSome,
        (r.reefer.bind (·.ret)).isSome, (r.reefer.bind (·.setpoint)).isSome, (r.reefer.bind (·.kind)).isSome]) ++
      [(r.serving.map number).getD 0, (r.target.map number).getD 0] ++ time r.confirmAt ++ time r.lossAt ++
      time r.orphanAt ++ [(r.cause.map SilentCause.byte).getD 0, (r.holder.map number).getD 0] ++
      (r.crane.map fun p => BitVec.ofNat 8 p.k :: bytes16 (p.position.getD 0)).getD [] ++
      (r.reefer.map fun p =>
        halfBytes p.period ++ [BitVec.ofNat 8 p.band, BitVec.ofNat 8 p.rise] ++ bytes32 p.admitted ++ time p.due ++
        [p.lastSeq.getD 0] ++ time p.lastReport ++ signedBytes (p.supply.getD 0) ++ signedBytes (p.ret.getD 0) ++
        signedBytes (p.setpoint.getD 0) ++
        [faultsByte p.faults, (p.kind.map reportKindByte).getD 0, indicatorsByte p.ind]).getD [] ++
      BitVec.ofNat 8 r.entries.length :: r.entries.flatMap (fun e =>
        number e.head :: (signedBytes e.f ++ bytes32 e.last ++ [BitVec.ofNat 8 e.count])) ++
      BitVec.ofNat 8 r.slots.length :: r.slots.flatMap (fun i =>
        [number i.head, BitVec.ofNat 8 (i.slot.val + if i.pending then 128 else 0)]))) ∧
    (∀ (h : HeadNum) (r : Head), sent (.recordHead h r) = answer 0x04 (
      [number h, r.link.byte, r.admin.byte, r.side.byte,
        BitVec.ofNat 8 (maskOf [r.position.isSome, r.floor.isSome, r.idle.isSome, r.silenceAt.isSome, r.settleAt.isSome,
          r.surveyEnd.isSome])] ++
      bytes16 (r.position.getD 0) ++ halfBytes r.capacity ++ halfBytes r.load ++ [BitVec.ofNat 8 (r.floor.getD 0)] ++
      signedBytes (r.idle.getD 0) ++ [markByte r.resurvey] ++ time r.silenceAt ++ time r.settleAt ++
      [r.survey.byte] ++ time r.surveyEnd ++ wordBytes r.samples ++ wordBytes r.sampleSum ++ [r.outcome.byte])) ∧
    (∀ w z, sent (.recordZone w z) = answer 0x04 (
      [number w, markByte z.enabled] ++ bytes16 z.base ++ [number z.sizeCode] ++
        z.quarters.toList.map (fun q => (q.map number).getD 0xFF))) ∧
    (∀ w v, sent (.recordVessel w v) = answer 0x04 (
      [number w, markByte v.enabled] ++ bytes16 v.start ++ halfBytes v.length)) ∧
    (∀ h items, sent (.recordPlan h items) = answer 0x04 (
      number h :: items.flatMap fun i : PlanItem =>
        number i.slot :: ((match i.use with
          | .free => 0x00#8 :: halfBytes 0
          | .active n => 0x01#8 :: halfBytes n.val
          | .pending n => 0x02#8 :: halfBytes n.val) ++ bytes16 (i.tag.getD 0)))) ∧
    (∀ entries last, sent (.block entries last) = answer 0x05 (
      BitVec.ofNat 8 entries.length :: markByte last :: entries.flatMap fun e : BlockEntry =>
        halfBytes e.number.val ++ bytes16 e.tag ++ [(e.cls.map TermClass.byte).getD 0, e.state.byte] ++
          bytes32 e.owner)) ∧
    (∀ p v, sent (.value p v) = answer 0x07 (p.byte :: p.classByte :: wordBytes v)) ∧
    (∀ c h t, sent (.event c (some (.head h)) t) = answer 0x08 (number c.num :: (halfBytes h.val ++ bytes32 t))) ∧
    (∀ c n t, sent (.event c (some (.context n)) t) = answer 0x08 (number c.num :: (halfBytes n.val ++ bytes32 t))) ∧
    ∀ t, sent (.noEvent t) = answer 0x09 (bytes32 t)) ∧
  -- R178: messages to a head
  (∀ (tag : Half) (v : Verdict) (h : Option HeadNum),
    (HeadMsg.answer tag v h).payload =
      0x81#8 :: (bytes16 tag ++ [v.byte, (h.map fun h => BitVec.ofNat 8 h.val).getD 0xFF])) ∧
  (∀ (tag : Half) (target : HeadNum) (slots : List SlotNum),
    (HeadMsg.order tag target slots).payload =
      0x82#8 :: (bytes16 tag ++ [BitVec.ofNat 8 target.val, BitVec.ofNat 8 slots.length] ++
        slots.map fun i => BitVec.ofNat 8 i.val)) ∧
  (∀ (slot : SlotNum) (tag : Half),
    (HeadMsg.plan slot .free).payload = [0x83, BitVec.ofNat 8 slot.val, 0, 0, 0] ∧
    (HeadMsg.plan slot (.active tag)).payload = 0x83#8 :: BitVec.ofNat 8 slot.val :: 1#8 :: bytes16 tag ∧
    (HeadMsg.plan slot (.pending tag)).payload = 0x83#8 :: BitVec.ofNat 8 slot.val :: 2#8 :: bytes16 tag) ∧
  HeadMsg.planClear.payload = [0x84] ∧
  (∀ duration, (HeadMsg.surveyBegin duration).payload = 0x85#8 :: halfBytes duration) ∧
  HeadMsg.surveyEnd.payload = [0x86]

/-- Every command that can reach the part is carried out, answered or discarded: none stops it. -/
def Obligations.EveryCommandHasANextState : Prop :=
  ∀ (i : Instr) (s : State), i.wf = true → ∃ t, exec i s = .next t

/-- R170, R21, R23, R24, R44, R118, R124, R128, R163, R165, R169: the values after the release of RESET_N. That the records
already hold them while the pin is low, that releasing a pin that is not low is no event, that the receive buffers and the
lines start empty, that the model's count of open values starts at 0, and that no frame waits that was counted as presence,
are the model's (logs 4, 5, 3, 6 and 19). -/
def Obligations.ResetPinGivesResetValues : Prop :=
  (∀ s : State,
    exec .resetAssert s =
      .next { State.reset with pending := s.pending, resetLow := true, openValues := s.openValues } ∧
    exec .resetRelease s =
      .next (if s.resetLow then { State.reset with pending := s.pending, openValues := s.openValues } else s)) ∧
  (∀ n : CtxNum, State.reset.ctx n = Context.freeIn 0 ∧ State.reset.wait n = []) ∧
  State.reset.idMap = [] ∧ State.reset.freeList = List.finRange 2048 ∧ State.reset.craneCount = 0 ∧
  (∀ ch : ChanNum, State.reset.chan ch = ⟨.idle, none, none, none, none, none, none⟩) ∧
  (∀ h : HeadNum,
    State.reset.headRec h =
      ⟨.absent, .enabled, .unset, none, 256, 0, none, none, false, none, none, .idle, none, 0, 0, .none⟩ ∧
    ∀ i : SlotNum, (State.reset.plan h)[i] = .free) ∧
  (∀ w : Fin 8, State.reset.zone w = ⟨false, 0, 0, #v[none, none, none, none]⟩) ∧
  (∀ w : Fin 4, State.reset.vessel w = ⟨false, 0, 1⟩) ∧
  State.reset.dueList = [] ∧ State.reset.clock = 0 ∧ State.reset.attn = false ∧
  (∀ c : EventClass, (State.reset.eventRec c).pending = false ∧ (State.reset.eventRec c).subject = none ∧
    (State.reset.eventRec c).masked = false) ∧
  EventClass.all.map (fun c => (State.reset.eventRec c).level) = [1, 3, 2, 2, 1, 4, 5, 6, 7] ∧
  State.reset.params = Params.default ∧
  Params.default =
    { weight := ⟨1, 3, 2⟩, hysteresis := ⟨24, 48, 32⟩, ttt := ⟨2, 4, 3⟩, confirmWindow := ⟨60, 2000, 500⟩
      bonus := ⟨32, 0, 0⟩, lossWindow := 120, orphanLimit := 10, grace := 30, holdLimit := 50, entryLifetime := 5000
      driftLimit := 8 } ∧
  State.reset.resetLow = false ∧ State.reset.pending = [] ∧
  State.reset.controlTx = [] ∧ (∀ h : HeadNum, State.reset.headTx[h] = []) ∧
  State.reset.controlRx = [] ∧ (∀ h : HeadNum, State.reset.headRx[h] = []) ∧
  State.reset.controlLine = [] ∧ (∀ h : HeadNum, State.reset.headLines[h] = []) ∧
  State.reset.openValues = 0 ∧ ∀ h : HeadNum, State.reset.counted[h] = 0

/-- R170: while RESET_N is low no frame is taken, no deadline expires and ATTN is low. That the clock stands meanwhile is
the model's (log 4). -/
def Obligations.NothingIsTakenWhileResetIsLow : Prop :=
  ∀ s : State, s.resetLow = true →
    (∀ i : Instr, i.wf = true → i ≠ .resetAssert → i ≠ .resetRelease → exec i s = .next s) ∧
    (∀ bs, s.receiveControl bs = s) ∧ (∀ h bs, s.receiveHead h bs = s) ∧ s.attn = false

/-- R159: the channel state decides whether a request is taken. One that is turned away is answered CHANNEL_BUSY and changes
nothing else; one that is taken receives no CHANNEL_BUSY. -/
def Obligations.RequestsAreTakenOrTurnedAway : Prop :=
  ∀ (i : Instr) (ch : ChanNum) (code : Byte) (s : State),
    i.wf = true → i.request = some (ch, code) → s.resetLow = false →
      (i.takenIn (s.chan ch).state = false → exec i s = .next (s.answer ch code .channelBusy)) ∧
      (i.takenIn (s.chan ch).state = true →
        ∃ t added, exec i s = .next t ∧ t.controlTx = s.controlTx ++ added ∧ ∀ a ∈ added, a.reply ≠ .channelBusy)

/-- R160: a request refused for form is answered BAD_FIELD, an unknown code ILLEGAL; the channel and everything else stand.
An unknown code on a channel that is not IDLE is answered CHANNEL_BUSY. R176, R177: a payload of one byte is answered
BAD_FIELD with echoed code 0 on an IDLE channel; on another channel it is turned away, with an echo that the spec does not
state (a free value, log 6). A frame for no channel, or with a bad CRC, changes nothing. A term that is no such frame is
refused (the model's, log 9). -/
def Obligations.RefusalsForFormChangeNothing : Prop :=
  (∀ (i : Instr) (ch : ChanNum) (code : Byte) (s : State),
    i.request = some (ch, code) → i.badlyFormed = true → s.resetLow = false → i.takenIn (s.chan ch).state = true →
      exec i s = .next (s.answer ch code .badField)) ∧
  (∀ (ch : ChanNum) (code : Byte) (s : State), code ∉ Instr.requestCodes → s.resetLow = false →
    exec (.illegal ch code) s =
      .next (s.answer ch code (if (s.chan ch).state = .idle then .illegal else .channelBusy))) ∧
  (∀ (l : Link) (s : State), exec (.frameDiscard l) s = .next s) ∧
  (∀ (ch : ChanNum) (s : State), s.resetLow = false →
    exec (.noCodeRequestFrame ch) s =
      .next (if (s.chan ch).state = .idle then s.answer ch 0x00 .badField
        else { s.answer ch (Config.noCodeBusyEcho s.openValues) .channelBusy with openValues := s.openValues + 1 })) ∧
  (∀ (b : Byte) (s : State), 3 < b.toNat → exec (.channelDiscard b) s = .next s) ∧
  (∀ (b : Byte) (s : State), b.toNat ≤ 3 → exec (.channelDiscard b) s = .refused .illFormed) ∧
  ∀ (ch : ChanNum) (code : Byte) (s : State), code ∈ Instr.requestCodes →
    exec (.illegal ch code) s = .refused .illFormed

/-- R161: a request that is taken or turned away has exactly one answer on its channel, with its own code; except a FETCH
that parks, which has none yet, and a CANCEL of a parked FETCH, where the FETCH is answered CANCELLED. -/
def Obligations.EveryRequestIsAnsweredOnce : Prop :=
  ∀ (i : Instr) (ch : ChanNum) (code : Byte) (s : State),
    i.wf = true → i.request = some (ch, code) → s.resetLow = false → s.ChannelsLawful → s.HoldsLawful →
      ∃ t added, exec i s = .next t ∧ t.controlTx = s.controlTx ++ added ∧
        ((∃ r, added.filter (fun a => a.channel = ch) = [⟨ch, code, r⟩]) ∨
         (code = 0x06 ∧ added = [] ∧ (t.chan ch).state = .parked) ∨
         (code = 0x09 ∧ (s.chan ch).state = .parked ∧ added = [⟨ch, 0x06, .cancelled⟩]))

/-! ## The Context Store: ADMIT and RETIRE -/

/-- R13: the checks of ADMIT in their order, each with its refusal, which changes nothing but the answer. -/
def Obligations.AdmissionChecks : Prop :=
  ∀ (ch : ChanNum) (f : AdmitFields) (s : State), s.Ready ch →
    let refusedWith := fun r => exec (.admitReq ch (.fields f)) s = .next (s.answer ch 0x01 r)
    (15 < f.head.toNat ∨ 2 < f.cls.toNat → refusedWith .badField) ∧
    ∀ (h : HeadNum) (c : TermClass), headOf f.head = some h → classOf f.cls = some c →
      (¬ f.set.Belongs c → refusedWith .badField) ∧
      (f.set.Belongs c →
        (∀ n, lookupId s.idMap f.identity = some n → refusedWith (.already n)) ∧
        (lookupId s.idMap f.identity = none →
          ((s.headRec h).link ≠ .inService → refusedWith .headUnavailable) ∧
          ((s.headRec h).link = .inService →
            (s.freeList = [] → refusedWith .noContext) ∧
            (s.freeList ≠ [] →
              (c = .crane ∧ 64 ≤ s.craneCount → refusedWith .craneLimit) ∧
              (¬ (c = .crane ∧ 64 ≤ s.craneCount) →
                ((s.headRec h).capacity ≤ (s.headRec h).load → refusedWith .headFull) ∧
                ((s.headRec h).load < (s.headRec h).capacity →
                  (c = .crane ∧ s.freeCount h < f.set.admitSlots → refusedWith .noSlots)))))))

/-- R14, R15 (with R7 and R12): an ADMIT that passes every check. The next state is given whole. -/
def Obligations.AdmissionMakesTheContext : Prop :=
  ∀ (ch : ChanNum) (f : AdmitFields) (s : State) (h : HeadNum) (c : TermClass) (n : CtxNum) (rest : List CtxNum)
    (floor : Nat),
    s.Ready ch → headOf f.head = some h → classOf f.cls = some c → f.set.Belongs c →
    lookupId s.idMap f.identity = none → (s.headRec h).link = .inService → (s.headRec h).floor = some floor →
    s.freeList = n :: rest → (c = .crane → s.craneCount < 64) → (s.headRec h).load < (s.headRec h).capacity →
    (c = .crane → f.set.admitSlots ≤ s.freeCount h) →
      let k := f.set.admitSlots
      let period := max 15 (min 3600 ((f.set.period.map BitVec.toNat).getD 300))
      let band := max 1 (min 100 ((f.set.band.map BitVec.toNat).getD 20))
      let rise := max 1 (min 100 ((f.set.rise.map BitVec.toNat).getD 15))
      let tag : Half := BitVec.ofNat 16 ((s.ctx n).gen.toNat * 2048 + n.val)
      let slots := s.lowestFree h k
      let record : Context := {
        gen := (s.ctx n).gen, state := .active, identity := some f.identity, cls := some c
        owner := f.set.owner.getD 0, serving := some h, target := none, confirmAt := none
        lossAt := if c = .crane then some (after s.clock s.params.lossWindow) else none
        orphanAt := none, cause := none
        entries := [{ head := h, f := 8 * max (-64) (min 127 ((f.sample.toNat : Int) - floor)), last := s.clock
                      count := 0, staleAt := some (after s.clock (s.params.entryLifetime + 1)), stale := false }]
        holder := none, awaitsServing := false
        crane := if c = .crane then some ⟨k, none⟩ else none
        reefer := if c = .reefer then
            some { period := period, band := band, rise := rise, admitted := s.clock
                   due := some (after s.clock (1000 * period)), lastSeq := none, lastReport := none, supply := none
                   ret := none, setpoint := none, faults := ⟨false, false, false⟩, kind := none
                   ind := ⟨false, false, false, false⟩ }
          else none }
      exec (.admitReq ch (.fields f)) s = .next { s with
        contexts := s.contexts.set n record
        freeList := rest
        idMap := insertId f.identity n s.idMap
        craneCount := if c = .crane then s.craneCount + 1 else s.craneCount
        heads := s.heads.set h { s.headRec h with load := (s.headRec h).load + 1 }
        plans := if c = .crane then s.plans.set h ((s.plan h).fill slots (.active n)) else s.plans
        headTx := if c = .crane then queueOn s.headTx h (planMessages slots (.active tag)) else s.headTx
        dueList := if c = .reefer then (s.placedInDueList n record).dueList else s.dueList
        controlTx := s.controlTx ++ [⟨ch, 0x01, .admitted n tag
          ⟨none, if c = .crane then some k else none, if c = .reefer then some period else none,
            if c = .reefer then some band else none, if c = .reefer then some rise else none⟩⟩] }

/-- R17, R18, R19: the refusals of RETIRE, and the retirement of a context that no other channel holds. The answers of the
channels parked on it come before DONE; on each link the PLAN messages go in ascending slot number; no event is raised. -/
def Obligations.RetirementFreesTheContext : Prop :=
  ∀ (ch : ChanNum) (w : Half) (s : State), s.Ready ch →
    (2047 < w.toNat → exec (.retire ch (.fields w)) s = .next (s.answer ch 0x02 .badField)) ∧
    ∀ n : CtxNum, ctxOf w = some n →
     ((s.ctx n).state = .free → exec (.retire ch (.fields w)) s = .next (s.answer ch 0x02 .freeContext)) ∧
     ((s.ctx n).state ≠ .free → (∃ other, (s.ctx n).holder = some other ∧ other ≠ ch) →
        exec (.retire ch (.fields w)) s = .next (s.answer ch 0x02 .held)) ∧
     ((s.ctx n).state ≠ .free → (s.ctx n).holder = none ∨ (s.ctx n).holder = some ch →
      let c := s.ctx n
      let crane := c.cls = some .crane
      ∃ t, exec (.retire ch (.fields w)) s = .next t ∧
        t = { s with
          contexts := s.contexts.set n (Context.freeIn (c.gen + 1))
          idMap := match c.identity with
            | some id => s.idMap.filter fun e => e.1 ≠ id
            | none => s.idMap
          freeList := s.freeList ++ [n]
          craneCount := if crane then s.craneCount - 1 else s.craneCount
          dueList := s.dueList.filter (· ≠ n)
          waits := s.waits.set n []
          controlTx := s.controlTx ++ (s.wait n).map (fun p => ⟨p, 0x06, .gone⟩) ++ [⟨ch, 0x02, .done⟩]
          channels := t.channels, heads := t.heads, plans := t.plans, headTx := t.headTx } ∧
        (∀ p : ChanNum, t.chan p =
          let r := if p = ch ∧ c.holder = some ch then { s.chan p with held := none, holdAt := none } else s.chan p
          if p ∈ s.wait n then { r with state := .idle, parkedOn := none, parkAt := none } else r) ∧
        (∀ h : HeadNum,
          t.headRec h =
            { s.headRec h with
              load := if c.serving = some h then (s.headRec h).load - 1 else (s.headRec h).load } ∧
          (∀ i : SlotNum, (t.plan h)[i] =
            if crane ∧ (c.serving = some h ∧ (s.plan h)[i] = .active n ∨ c.target = some h ∧ (s.plan h)[i] = .pending n)
            then .free else (s.plan h)[i]) ∧
          t.headTx[h] = s.headTx[h] ++
            (if crane ∧ s.inService h = true ∧ c.serving = some h then
              planMessages ((s.plan h).slotsWith (.active n)) .free else []) ++
            (if crane ∧ s.inService h = true ∧ c.target = some h then
              planMessages ((s.plan h).slotsWith (.pending n)) .free else [])))

/-- R7, R8: the tag of a context; a tag resolves to the context that its low 11 bits name when that context is in use and
its generation is the tag's high 5 bits, and to none otherwise; a context in use is the one its own tag resolves to; two
contexts have different tags. -/
def Obligations.TagsNameOneContext : Prop :=
  (∀ (s : State) (n : CtxNum), (s.tag n).toNat = (s.ctx n).gen.toNat * 2048 + n.val) ∧
  (∀ (s : State) (tag : Half) (n : CtxNum),
    s.resolve tag = some n ↔
      n.val = tag.toNat % 2048 ∧ (s.ctx n).state ≠ .free ∧ (s.ctx n).gen.toNat = tag.toNat / 2048) ∧
  (∀ (s : State) (n : CtxNum), (s.ctx n).state ≠ .free → s.resolve (s.tag n) = some n) ∧
  ∀ (s : State) (m n : CtxNum), s.tag m = s.tag n → m = n

/-! ## Reading and changing records -/

/-- R25, over the identity map's law (R9): FIND answers FOUND with the context in use that has the identity, and ABSENT_ID
when there is none; it changes nothing. -/
def Obligations.FindLooksTheIdentityUp : Prop :=
  ∀ (ch : ChanNum) (id : Identity) (s : State), s.Ready ch → s.IdMapLawful →
    (∀ n : CtxNum, (s.ctx n).state ≠ .free → (s.ctx n).identity = some id →
      exec (.find ch (.fields id)) s =
        .next (s.answer ch 0x03 (.found n (s.tag n) (s.ctx n).state (s.ctx n).owner))) ∧
    ((∀ n : CtxNum, (s.ctx n).state ≠ .free → (s.ctx n).identity ≠ some id) →
      exec (.find ch (.fields id)) s = .next (s.answer ch 0x03 .absentId))

/-- R26: READ's answer, its read-out as the record stands, and its slot list from the plans; READ changes nothing. -/
def Obligations.ReadShowsTheRecord : Prop :=
  (∀ (ch : ChanNum) (w : Half) (s : State), s.Ready ch →
    (2047 < w.toNat → exec (.read ch (.fields w)) s = .next (s.answer ch 0x04 .badField)) ∧
    ∀ n : CtxNum, ctxOf w = some n →
      ((s.ctx n).state = .free → exec (.read ch (.fields w)) s = .next (s.answer ch 0x04 .freeContext)) ∧
      ((s.ctx n).state ≠ .free →
        exec (.read ch (.fields w)) s = .next (s.answer ch 0x04 (.recordContext
          { number := n, gen := (s.ctx n).gen, tag := s.tag n, state := (s.ctx n).state
            identity := (s.ctx n).identity, cls := (s.ctx n).cls, owner := (s.ctx n).owner, held := false
            serving := (s.ctx n).serving, target := (s.ctx n).target, confirmAt := (s.ctx n).confirmAt
            lossAt := (s.ctx n).lossAt, orphanAt := (s.ctx n).orphanAt, cause := (s.ctx n).cause
            holder := (s.ctx n).holder, crane := (s.ctx n).crane, reefer := (s.ctx n).reefer
            entries := (s.ctx n).entries.map fun e => ⟨e.head, e.f, e.last, e.count⟩
            slots := s.slotItems n (s.ctx n).serving ++ s.slotItems n (s.ctx n).target })))) ∧
  ∀ (s : State) (n : CtxNum),
    s.slotItems n none = [] ∧
    ∀ h : HeadNum,
      (s.slotItems n (some h)).Pairwise (fun x y => x.slot < y.slot) ∧
      ∀ x : SlotOut, x ∈ s.slotItems n (some h) ↔
        x.head = h ∧ (s.plan h)[x.slot] = if x.pending then .pending n else .active n

/-- R29, R27: the refusals of UPDATE, each of which changes nothing. A STORE by the holder is refused as R27 says with the
same answers and keeps its hold (R33); one by another channel is answered NOT_HELD. -/
def Obligations.FieldSetsAreChecked : Prop :=
  ∀ (ch : ChanNum) (f : WriteFields) (s : State), s.Ready ch →
    (2047 < f.context.toNat →
      exec (.update ch (.fields f)) s = .next (s.answer ch 0x05 .badField) ∧
      exec (.store ch (.fields f)) s = .next (s.answer ch 0x07 .badField)) ∧
    ∀ n : CtxNum, ctxOf f.context = some n →
      ((s.ctx n).state = .free → exec (.update ch (.fields f)) s = .next (s.answer ch 0x05 .freeContext)) ∧
      ((s.ctx n).state ≠ .free → (∃ other, (s.ctx n).holder = some other ∧ other ≠ ch) →
        exec (.update ch (.fields f)) s = .next (s.answer ch 0x05 .held)) ∧
      ((s.chan ch).held ≠ some n → exec (.store ch (.fields f)) s = .next (s.answer ch 0x07 .notHeld)) ∧
      ∀ (c : TermClass) (r : Reply), (s.ctx n).cls = some c →
        (r = .badField ∧ ¬ f.set.Belongs c ∨
         r = .state ∧ c = .crane ∧ f.set.Belongs c ∧ (s.ctx n).state = .moving ∧
            (∃ b, f.set.slotCount = some b ∧ clamp 1 4 b.toNat ≠ (s.ctx n).slotNeed) ∨
         r = .noSlots ∧ c = .crane ∧ f.set.Belongs c ∧ (s.ctx n).state ≠ .moving ∧
            ∃ b h, f.set.slotCount = some b ∧ (s.ctx n).serving = some h ∧
              (s.ctx n).slotNeed < clamp 1 4 b.toNat ∧ s.freeCount h < clamp 1 4 b.toNat - (s.ctx n).slotNeed) →
        ((s.ctx n).state ≠ .free → (s.ctx n).holder = none ∨ (s.ctx n).holder = some ch →
          exec (.update ch (.fields f)) s = .next (s.answer ch 0x05 r)) ∧
        ((s.chan ch).held = some n → exec (.store ch (.fields f)) s = .next (s.answer ch 0x07 r))

/-- R28, R33, R154 to R156: an UPDATE or a holder's STORE of a REEFER or a GENERAL context. A new period moves a present due
time, the count start kept, and the reefer is placed anew in the due list; the indicators stand. A STORE then drops the
hold, which passes on after DONE. That the
count start stands through an ALARM is read from R150 (log 21). -/
def Obligations.OwnerAndReeferProfileAreWritten : Prop :=
  ∀ (ch : ChanNum) (f : WriteFields) (s : State) (n : CtxNum) (c : TermClass),
    s.Ready ch → ctxOf f.context = some n → (s.ctx n).state ≠ .free →
    (s.ctx n).cls = some c → f.set.Belongs c → c ≠ .crane → (s.ctx n).crane = none →
    (c = .general → (s.ctx n).reefer = none) →
      let period? := f.set.period.map fun p => max 15 (min 3600 p.toNat)
      let band? := f.set.band.map fun b => max 1 (min 100 b.toNat)
      let rise? := f.set.rise.map fun b => max 1 (min 100 b.toNat)
      let reply := Reply.doneFields ⟨f.set.owner, none, period?, band?, rise?⟩
      let record : Context := { s.ctx n with
        owner := f.set.owner.getD (s.ctx n).owner
        reefer := (s.ctx n).reefer.map fun r => { r with
          period := period?.getD r.period, band := band?.getD r.band, rise := rise?.getD r.rise
          due := r.due.map fun d => after (d - BitVec.ofNat 32 (1000 * r.period)) (1000 * period?.getD r.period) } }
      let moved := ∃ r, (s.ctx n).reefer = some r ∧ r.due ≠ none ∧ period?.getD r.period ≠ r.period
      let writes := fun w : State =>
        ((s.ctx n).holder = none ∨ (s.ctx n).holder = some ch →
          exec (.update ch (.fields f)) s = .next (w.answer ch 0x05 reply)) ∧
        ((s.chan ch).held = some n →
          exec (.store ch (.fields f)) s = .next (({ w with
            contexts := s.contexts.set n { record with holder := none }
            channels := s.channels.set ch { s.chan ch with held := none, holdAt := none } }.answer
              ch 0x07 reply).handOn n))
      (¬ moved → writes { s with contexts := s.contexts.set n record }) ∧
      (moved → writes (s.placedInDueList n record))

/-- R28, R33, R133: an UPDATE or a holder's STORE of a CRANE context that R27 does not refuse. More slots are the lowest
free ones of the serving head's plan; fewer frees the crane's highest; one PLAN message goes for each. A STORE then drops
the hold, which passes on after DONE. -/
def Obligations.SlotCountMovesTheCranesSlots : Prop :=
  ∀ (ch : ChanNum) (f : WriteFields) (s : State) (n : CtxNum) (part : CranePart),
    s.Ready ch → ctxOf f.context = some n → (s.ctx n).state ≠ .free →
    (s.ctx n).cls = some .crane → (s.ctx n).crane = some part → (s.ctx n).reefer = none → f.set.Belongs .crane →
      let slots? := f.set.slotCount.map fun b => max 1 (min 4 b.toNat)
      let k' := slots?.getD part.k
      let record : Context :=
        { s.ctx n with owner := f.set.owner.getD (s.ctx n).owner, crane := some { part with k := k' } }
      let reply := Reply.doneFields ⟨f.set.owner, slots?, none, none, none⟩
      let writes := fun w : State =>
        ((s.ctx n).holder = none ∨ (s.ctx n).holder = some ch →
          exec (.update ch (.fields f)) s =
            .next ({ w with contexts := s.contexts.set n record }.answer ch 0x05 reply)) ∧
        ((s.chan ch).held = some n →
          exec (.store ch (.fields f)) s = .next (({ w with
            contexts := s.contexts.set n { record with holder := none }
            channels := s.channels.set ch { s.chan ch with held := none, holdAt := none } }.answer
              ch 0x07 reply).handOn n))
      (k' = part.k ∨ (s.ctx n).serving = none ∧ (s.ctx n).state ≠ .moving → writes s) ∧
      ∀ h : HeadNum, (s.ctx n).serving = some h → s.inService h = true → (s.ctx n).state ≠ .moving →
        (part.k < k' → k' - part.k ≤ s.freeCount h →
          writes { s with
            plans := s.plans.set h ((s.plan h).fill (s.lowestFree h (k' - part.k)) (.active n))
            headTx := queueOn s.headTx h (planMessages (s.lowestFree h (k' - part.k)) (.active (s.tag n))) }) ∧
        (k' < part.k →
          let mine := (s.plan h).slotsWith (.active n)
          let freed := mine.drop (mine.length - (part.k - k'))
          writes { s with
            plans := s.plans.set h ((s.plan h).fill freed .free)
            headTx := queueOn s.headTx h (planMessages freed .free) })

/-- R30, R31: the five cases of FETCH. A grant changes the holder, the held context and the hold deadline alone; a park
changes the channel and the tail of the wait list alone. -/
def Obligations.FetchGrantsOrParks : Prop :=
  ∀ (ch : ChanNum) (w : Half) (s : State), s.Ready ch →
    (2047 < w.toNat → exec (.fetch ch (.fields w)) s = .next (s.answer ch 0x06 .badField)) ∧
    ∀ n : CtxNum, ctxOf w = some n →
      ((s.chan ch).held ≠ none → exec (.fetch ch (.fields w)) s = .next (s.answer ch 0x06 .holding)) ∧
      ((s.chan ch).held = none → (s.ctx n).state = .free →
        exec (.fetch ch (.fields w)) s = .next (s.answer ch 0x06 .freeContext)) ∧
      ((s.chan ch).held = none → (s.ctx n).state ≠ .free → (s.ctx n).holder = none →
        let granted : State := { s with
          contexts := s.contexts.set n { s.ctx n with holder := some ch }
          channels := s.channels.set ch
            { s.chan ch with held := some n, holdAt := some (after s.clock s.params.holdLimit) } }
        exec (.fetch ch (.fields w)) s =
          .next (granted.answer ch 0x06 (.recordContext { s.readOut n true with holder := some ch }))) ∧
      ((s.chan ch).held = none → (s.ctx n).state ≠ .free → (s.ctx n).holder ≠ none →
        exec (.fetch ch (.fields w)) s = .next { s with
          channels := s.channels.set ch { s.chan ch with
            state := .parked, parkedOn := some n, parkAt := some (after s.clock s.params.holdLimit) }
          waits := s.waits.set n (s.wait n ++ [ch]) })

/-- R34, R32: RELEASE drops the hold, is answered DONE, and the hold passes on; from a channel that does not hold the
context it is answered NOT_HELD and changes nothing. When a hold passes on, with no channel waiting the record is left
unheld; else the channel at the head of the wait list leaves PARKED for IDLE as the holder, with a new hold deadline, and
its FETCH is answered RECORD with the held mark. -/
def Obligations.HoldsPassInOrder : Prop :=
  (∀ (ch : ChanNum) (w : Half) (s : State), s.Ready ch →
    (2047 < w.toNat → exec (.release ch (.fields w)) s = .next (s.answer ch 0x08 .badField)) ∧
    ∀ n : CtxNum, ctxOf w = some n →
      ((s.chan ch).held ≠ some n → exec (.release ch (.fields w)) s = .next (s.answer ch 0x08 .notHeld)) ∧
      ((s.chan ch).held = some n →
        exec (.release ch (.fields w)) s = .next ((({ s with
          contexts := s.contexts.set n { s.ctx n with holder := none }
          channels := s.channels.set ch { s.chan ch with held := none, holdAt := none } }).answer
            ch 0x08 .done).handOn n))) ∧
  ∀ (s : State) (n : CtxNum),
    (s.wait n = [] → s.handOn n = s) ∧
    ∀ (ch : ChanNum) (rest : List ChanNum), s.wait n = ch :: rest →
      s.handOn n = { s with
        contexts := s.contexts.set n { s.ctx n with holder := some ch }
        channels := s.channels.set ch { s.chan ch with
          state := .idle, held := some n, holdAt := some (after s.clock s.params.holdLimit)
          parkedOn := none, parkAt := none }
        waits := s.waits.set n rest
        controlTx := s.controlTx ++
          [⟨ch, 0x06, .recordContext { s.readOut n true with holder := some ch }⟩] }

/-- R35, R36, R37, R43: the deadlines of a channel when they are reached, and before, and CANCEL, which on a PARKED channel
has no answer of its own and on an IDLE one is answered STATE. The hold's expiry raises HOLD_EXPIRED
before the hold passes on; a parked FETCH is answered TIMEOUT; a sweep ends with no answer. That an expiry sent before its
deadline does nothing is the model's (log 2). -/
def Obligations.ChannelDeadlinesAndCancel : Prop :=
  ∀ (ch : ChanNum) (s : State), s.resetLow = false →
    (∀ n, (s.chan ch).held = some n → expired s.clock (s.chan ch).holdAt = true →
      exec (.holdExpiry ch) s = .next ((({ s with
        contexts := s.contexts.set n { s.ctx n with holder := none }
        channels := s.channels.set ch { s.chan ch with held := none, holdAt := none } }).raise
          .holdExpired (.context n)).handOn n)) ∧
    ((s.chan ch).held = none ∨ expired s.clock (s.chan ch).holdAt = false → exec (.holdExpiry ch) s = .next s) ∧
    (∀ n, (s.chan ch).parkedOn = some n → expired s.clock (s.chan ch).parkAt = true →
      exec (.parkDeadline ch) s = .next ({ s with
        waits := s.waits.set n ((s.wait n).filter (· ≠ ch))
        channels := s.channels.set ch { s.chan ch with state := .idle, parkedOn := none, parkAt := none } }.answer
          ch 0x06 .timeout)) ∧
    ((s.chan ch).parkedOn = none ∨ expired s.clock (s.chan ch).parkAt = false →
      exec (.parkDeadline ch) s = .next s) ∧
    ((s.chan ch).state = .sweeping → expired s.clock (s.chan ch).idleAt = true →
      exec (.idleDeadline ch) s = .next { s with
        channels := s.channels.set ch { s.chan ch with state := .idle, sweep := none, idleAt := none } }) ∧
    ((s.chan ch).state ≠ .sweeping ∨ expired s.clock (s.chan ch).idleAt = false →
      exec (.idleDeadline ch) s = .next s) ∧
    ((s.chan ch).state = .idle → exec (.cancel ch (.fields ())) s = .next (s.answer ch 0x09 .state)) ∧
    ∀ n, (s.chan ch).state = .parked → (s.chan ch).parkedOn = some n →
      exec (.cancel ch (.fields ())) s = .next ({ s with
        waits := s.waits.set n ((s.wait n).filter (· ≠ ch))
        channels := s.channels.set ch { s.chan ch with state := .idle, parkedOn := none, parkAt := none } }.answer
          ch 0x06 .cancelled)

/-- R41: when a record matches a filter. -/
def Obligations.SweepFiltersMatch : Prop :=
  ∀ (f : SweepFilter) (c : Context),
    f.accepts c = true ↔
      c.state ≠ .free ∧
      (∃ k, c.cls = some k ∧
        match k with | .crane => f.classes.crane | .reefer => f.classes.reefer | .general => f.classes.general) ∧
      (match c.state with
        | .free => false | .active => f.states.active | .moving => f.states.moving
        | .orphan => f.states.orphan | .silent => f.states.silent) ∧
      (∀ h, f.head = some h → c.serving = some h) ∧
      (f.conditions = ⟨false, false, false, false⟩ ∨
        ∃ r, c.reefer = some r ∧
          (f.conditions.warm ∧ r.ind.warm ∨ f.conditions.cold ∧ r.ind.cold ∨ f.conditions.rising ∧ r.ind.rising ∨
            f.conditions.fault ∧ r.ind.fault))

/-- R42: the block from a cursor holds the first 16 matching records from the cursor on, in ascending number. It is LAST
when fewer than 16 match or the 16th is context 2047; otherwise the cursor then stands after the 16th. -/
def Obligations.SweepBlocksHoldTheFirstSixteen : Prop :=
  ∀ (s : State) (w : Sweep),
    let found := (List.finRange 2048).filter fun n => decide (w.cursor ≤ n) && w.filter.accepts (s.ctx n)
    (s.nextBlock w).1 =
      (found.take 16).map (fun n => ⟨n, s.tag n, (s.ctx n).cls, (s.ctx n).state, (s.ctx n).owner⟩) ∧
    (found.length < 16 → (s.nextBlock w).2 = none) ∧
    ∀ n, found[15]? = some n →
      (n.val = 2047 → (s.nextBlock w).2 = none) ∧
      ∀ h : n.val + 1 < 2048, (s.nextBlock w).2 = some ⟨n.val + 1, h⟩

/-- R40, R43: SWEEP from context 0, CONTINUE from the cursor, and STOP. A block that is not LAST leaves the channel
SWEEPING with its cursor and a new idle deadline; a LAST one leaves it IDLE with none. -/
def Obligations.SweepsRunOnTheirChannel : Prop :=
  ∀ (ch : ChanNum) (s : State), s.resetLow = false →
    let answered := fun (code : Byte) (w : Sweep) =>
      let block := s.nextBlock w
      match block.2 with
      | none => { s with
          channels := s.channels.set ch { s.chan ch with state := .idle, sweep := none, idleAt := none } }.answer
            ch code (.block block.1 true)
      | some cursor => { s with
          channels := s.channels.set ch { s.chan ch with
            state := .sweeping, sweep := some ⟨w.filter, cursor⟩
            idleAt := some (after s.clock s.params.holdLimit) } }.answer ch code (.block block.1 false)
    (∀ f, (s.chan ch).state = .idle →
      (7 < f.classSet.toNat ∨ 15 < f.stateSet.toNat ∨ 15 < f.condSet.toNat ∨ (15 < f.head.toNat ∧ f.head ≠ 0xFF) →
        exec (.sweep ch (.fields f)) s = .next (s.answer ch 0x0A .badField)) ∧
      ∀ head, f.classSet.toNat ≤ 7 → f.stateSet.toNat ≤ 15 → f.condSet.toNat ≤ 15 →
        (f.head = 0xFF ∧ head = none ∨ ∃ h, head = some h ∧ f.head.toNat = h.val) →
          exec (.sweep ch (.fields f)) s = .next (answered 0x0A ⟨⟨
            ⟨f.classSet.getLsbD 0, f.classSet.getLsbD 1, f.classSet.getLsbD 2⟩,
            ⟨f.stateSet.getLsbD 0, f.stateSet.getLsbD 1, f.stateSet.getLsbD 2, f.stateSet.getLsbD 3⟩,
            ⟨f.condSet.getLsbD 0, f.condSet.getLsbD 1, f.condSet.getLsbD 2, f.condSet.getLsbD 3⟩, head⟩, 0⟩)) ∧
    ((s.chan ch).state = .idle →
      exec (.continueSweep ch (.fields ())) s = .next (s.answer ch 0x0B .state) ∧
      exec (.stopSweep ch (.fields ())) s = .next (s.answer ch 0x0C .state)) ∧
    ∀ w, (s.chan ch).state = .sweeping → (s.chan ch).sweep = some w →
      exec (.continueSweep ch (.fields ())) s = .next (answered 0x0B w) ∧
      exec (.stopSweep ch (.fields ())) s = .next ({ s with
        channels := s.channels.set ch { s.chan ch with state := .idle, sweep := none, idleAt := none } }.answer
          ch 0x0C .done)

/-! ## The heads -/

/-- R176, R177: which bytes name a context, a head, a class, a side, a mark, a window, an event class; every other byte names
nothing. -/
def Obligations.BytesNameThings : Prop :=
  (∀ w n, ctxOf w = some n ↔ w.toNat = n.val) ∧ (∀ b h, headOf b = some h ↔ b.toNat = h.val) ∧
  (∀ b h, headChoiceOf b = some h ↔ (b = 0xFF ∧ h = none) ∨ ∃ k, h = some k ∧ b.toNat = k.val) ∧
  (∀ b c, classOf b = some c ↔ b = match c with | .crane => 0 | .reefer => 1 | .general => 2) ∧
  (∀ b c, sideOf b = some c ↔ b = match c with | .unset => 0 | .waterside => 1 | .landside => 2) ∧
  (∀ b m, markOf b = some m ↔ b = if m then 1 else 0) ∧
  (∀ b w, zoneOf b = some w ↔ b.toNat = w.val) ∧ (∀ b w, vesselOf b = some w ↔ b.toNat = w.val) ∧
  (∀ b c, eventOf b = some c ↔ b.toNat = c.num.val) ∧
  EventClass.all.map (fun c => c.num.val) = [0, 1, 2, 3, 4, 5, 6, 7, 8]

/-- R53, R54, R50, R49, R131: HEAD_SET, HEAD_READ and HEAD_ENABLE. A head that is STANDBY with a floor enters service when it
is enabled, with PLAN_CLEAR on its link and HEAD_STATE; any other head keeps its link state. -/
def Obligations.HeadsAreSetReadAndEnabled : Prop :=
  (∀ (ch : ChanNum) (f : HeadSetFields) (s : State), s.Ready ch →
    (15 < f.head.toNat ∨ 2 < f.side.toNat → exec (.headSet ch (.fields f)) s = .next (s.answer ch 0x10 .badField)) ∧
    ∀ (h : HeadNum) (side : Side), headOf f.head = some h → sideOf f.side = some side →
      let capacity := max 1 (min 2048 f.capacity.toNat)
      exec (.headSet ch (.fields f)) s = .next ({ s with
        heads := s.heads.set h { s.headRec h with position := f.position, side := side, capacity := capacity } }.answer
          ch 0x10 (.doneValue capacity))) ∧
  ∀ (ch : ChanNum) (b : Byte) (s : State), s.Ready ch →
    (15 < b.toNat →
      exec (.headRead ch (.fields b)) s = .next (s.answer ch 0x13 .badField) ∧
      exec (.headEnable ch (.fields b)) s = .next (s.answer ch 0x11 .badField)) ∧
    ∀ h : HeadNum, headOf b = some h →
      let enabled : Head := { s.headRec h with admin := .enabled }
      exec (.headRead ch (.fields b)) s = .next (s.answer ch 0x13 (.recordHead h (s.headRec h))) ∧
      ((s.headRec h).link ≠ .standby ∨ (s.headRec h).floor = none →
        exec (.headEnable ch (.fields b)) s =
          .next ({ s with heads := s.heads.set h enabled }.answer ch 0x11 .done)) ∧
      ((s.headRec h).link = .standby → (s.headRec h).floor ≠ none →
        exec (.headEnable ch (.fields b)) s = .next (({ s with
          heads := s.heads.set h { enabled with link := .inService }
          headTx := queueOn s.headTx h [.planClear] }.raise .headState (.head h)).answer ch 0x11 .done))

/-- R51, R131: HEAD_DISABLE. A head in service is withdrawn and enters STANDBY with HEAD_STATE; of the messages waiting on
its link the ORDER, PLAN and PLAN_CLEAR ones are discarded. -/
def Obligations.DisabledHeadsAreWithdrawn : Prop :=
  ∀ (ch : ChanNum) (b : Byte) (s : State), s.Ready ch →
    (15 < b.toNat → exec (.headDisable ch (.fields b)) s = .next (s.answer ch 0x12 .badField)) ∧
    ∀ h : HeadNum, headOf b = some h →
      let disabled : Head := { s.headRec h with admin := .disabled }
      ((s.headRec h).link ≠ .inService →
        exec (.headDisable ch (.fields b)) s =
          .next ({ s with heads := s.heads.set h disabled }.answer ch 0x12 .done)) ∧
      ((s.headRec h).link = .inService →
        exec (.headDisable ch (.fields b)) s = .next (({ s.withdraw h with
          heads := s.heads.set h { disabled with link := .standby, load := 0 }
          headTx := s.headTx.set h ((s.headTx[h]).filter fun m => match m with
            | .answer _ _ _ | .surveyBegin _ | .surveyEnd => true
            | .order _ _ _ | .plan _ _ | .planClear => false) }.raise .headState (.head h)).answer ch 0x12 .done))

/-- R48, R46: link loss when the silence deadline of a head is reached, and before. The waiting frames of the link are
discarded; a head in service is withdrawn; a running survey ends ABORTED with its SURVEY event; HEAD_STATE is raised. That
an expiry sent before its deadline does nothing is the model's (log 2). -/
def Obligations.LinkLossMakesTheHeadAbsent : Prop :=
  ∀ (h : HeadNum) (s : State), s.resetLow = false →
    ((s.headRec h).link = .absent ∨ expired s.clock (s.headRec h).silenceAt = false →
      exec (.linkLoss h) s = .next s) ∧
    ((s.headRec h).link ≠ .absent → expired s.clock (s.headRec h).silenceAt = true →
      let r := s.headRec h
      let left := if r.link = .inService then s.withdraw h else s
      let lost : Head := { r with
        link := .absent, silenceAt := none, settleAt := none, floor := none, idle := none, resurvey := false
        load := if r.link = .inService then 0 else r.load }
      (r.survey = .idle →
        exec (.linkLoss h) s = .next ({ left with
          heads := s.heads.set h lost, headTx := s.headTx.set h [] }.raise .headState (.head h))) ∧
      (r.survey = .running →
        exec (.linkLoss h) s = .next (({ left with
          heads := s.heads.set h { lost with survey := .idle, surveyEnd := none, outcome := .aborted }
          headTx := s.headTx.set h [] }.raise .survey (.head h)).raise .headState (.head h))))

/-- R61, R62, R63, R137: the withdrawal of a head, field by field and context by context. A context whose handover fails and
that returns to ACTIVE awaits a contact from its serving head (R63, log 20). -/
def Obligations.WithdrawalSettlesEveryContext : Prop :=
  ∀ (h : HeadNum) (s : State),
    let t := s.withdraw h
    let orphanAt := after s.clock (1000 * s.params.orphanLimit)
    t = { s with
      heads := s.heads.set h { s.headRec h with load := 0 }
      plans := s.plans.set h (Vector.replicate 32 .free)
      dueList := s.dueList.filter fun n => !(s.ctx n).orphanedBy h
      contexts := t.contexts, events := t.events } ∧
    (∀ c : Context, c.orphanedBy h = true ↔
      c.state = .active ∧ c.serving = some h ∨ c.state = .moving ∧ c.target = some h ∧ c.serving = none) ∧
    (∀ c : Context, c.failedBy h = true ↔ c.state = .moving ∧ c.target = some h) ∧
    (∀ n : CtxNum,
      let c := s.ctx n
      let kept : Context := { c with entries := c.entries.filter fun e => decide (e.head ≠ h) }
      let orphan : Context :=
        { kept.dueAt none with state := .orphan, serving := none, lossAt := none, orphanAt := some orphanAt }
      (c.state = .free → t.ctx n = c) ∧
      (c.state = .active → c.serving = some h → t.ctx n = orphan) ∧
      (c.state = .moving → c.target = some h → c.serving = none →
        t.ctx n = { orphan with target := none, confirmAt := none }) ∧
      (c.state = .moving → c.target = some h → c.serving ≠ none →
        t.ctx n = { kept with state := .active, target := none, confirmAt := none, awaitsServing := true }) ∧
      (c.state = .moving → c.target ≠ some h → c.serving = some h → t.ctx n = { kept with serving := none }) ∧
      (c.state = .silent → c.serving = some h → t.ctx n = { kept with serving := none }) ∧
      (c.state ≠ .free → c.serving ≠ some h → ¬ (c.state = .moving ∧ c.target = some h) → t.ctx n = kept)) ∧
    (∀ e : EventClass, e ≠ .contextOrphaned → e ≠ .handoverFailed → t.eventRec e = s.eventRec e) ∧
    ∀ (e : EventClass) (concerned : Context → Bool),
      (e = .contextOrphaned ∧ concerned = Context.orphanedBy h ∨
        e = .handoverFailed ∧ concerned = Context.failedBy h) →
      ((∀ n : CtxNum, concerned (s.ctx n) = false) → t.eventRec e = s.eventRec e) ∧
      ∀ n : CtxNum, concerned (s.ctx n) = true → (∀ m : CtxNum, concerned (s.ctx m) = true → m ≤ n) →
        t.eventRec e = { s.eventRec e with pending := true, subject := some (.context n) }

/-- R55, R56, R58, R49: SURVEY starts or restarts a survey, and the end of its time closes it: DONE with a new floor, which
may bring the head into service, or FAILED with no sample. That SURVEY_END_TIME sent before the end time, or with no survey
RUNNING, does nothing is the model's (log 2). -/
def Obligations.SurveysMeasureTheFloor : Prop :=
  (∀ (ch : ChanNum) (f : SurveyFields) (s : State), s.Ready ch →
    (15 < f.head.toNat → exec (.survey ch (.fields f)) s = .next (s.answer ch 0x14 .badField)) ∧
    ∀ h : HeadNum, headOf f.head = some h →
      let duration := max 100 (min 5000 f.duration.toNat)
      ((s.headRec h).link = .absent ∨ (s.headRec h).link = .settling →
        exec (.survey ch (.fields f)) s = .next (s.answer ch 0x14 .state)) ∧
      ((s.headRec h).link = .standby ∨ (s.headRec h).link = .inService →
        exec (.survey ch (.fields f)) s = .next ({ s with
          heads := s.heads.set h { s.headRec h with
            survey := .running, outcome := .none, samples := 0, sampleSum := 0
            surveyEnd := some (after s.clock duration) }
          headTx := queueOn s.headTx h [.surveyBegin duration] }.answer ch 0x14 (.doneValue duration)))) ∧
  ∀ (h : HeadNum) (s : State), s.resetLow = false →
    ((s.headRec h).survey ≠ .running ∨ expired s.clock (s.headRec h).surveyEnd = false →
      exec (.surveyEndTime h) s = .next s) ∧
    ((s.headRec h).survey = .running → expired s.clock (s.headRec h).surveyEnd = true →
      (s.headRec h).link = .standby ∨ (s.headRec h).link = .inService →
      let r := s.headRec h
      let ended : Head := { r with survey := .idle, surveyEnd := none }
      let floor := r.sampleSum / r.samples
      let done : Head :=
        { ended with outcome := .done, floor := some floor, idle := some (8 * floor), resurvey := false }
      (r.samples = 0 →
        exec (.surveyEndTime h) s = .next ({ s with
          heads := s.heads.set h { ended with outcome := .failed }
          headTx := queueOn s.headTx h [.surveyEnd] }.raise .survey (.head h))) ∧
      (r.samples ≠ 0 → r.link = .standby → r.admin = .enabled →
        exec (.surveyEndTime h) s = .next (({ s with
          heads := s.heads.set h { done with link := .inService }
          headTx := queueOn s.headTx h [.surveyEnd, .planClear] }.raise .headState (.head h)).raise
            .survey (.head h))) ∧
      (r.samples ≠ 0 → r.link ≠ .standby ∨ r.admin ≠ .enabled →
        exec (.surveyEndTime h) s = .next ({ s with
          heads := s.heads.set h done
          headTx := queueOn s.headTx h [.surveyEnd] }.raise .survey (.head h))))

/-- R46, R47, R57, R59, R60, R175: what a KEEPALIVE, a malformed frame and the settle deadline do to the head. The presence
of a frame that waited to be taken was counted when it arrived (log 19). That a settle deadline sent before it is reached
does nothing is the model's (log 2). -/
def Obligations.HeadsAreHeard : Prop :=
  ∀ (h : HeadNum) (s : State), s.resetLow = false →
    let t := s.hearing h
    let r := t.headRec h
    exec (.keepalive h none) s = .next t ∧
    exec (.malformedHeadFrame h) s = .next (t.raise .headProtocol (.head h)) ∧
    (∀ x : Byte,
      (r.survey = .running →
        exec (.keepalive h (some x)) s = .next { t with
          heads := t.heads.set h { r with samples := r.samples + 1, sampleSum := r.sampleSum + x.toNat } }) ∧
      (r.survey = .idle → r.floor = none ∨ r.idle = none →
        exec (.keepalive h (some x)) s = .next t) ∧
      ∀ (floor : Nat) (old : Int), r.survey = .idle → r.floor = some floor → r.idle = some old →
        let new : Int := old + (8 * (x.toNat : Int) - old).tdiv 16
        let far : Prop := 8 * s.params.driftLimit < (new - 8 * floor).natAbs
        (¬ far ∨ r.resurvey = true →
          exec (.keepalive h (some x)) s = .next { t with heads := t.heads.set h { r with idle := some new } }) ∧
        (far → r.resurvey = false →
          exec (.keepalive h (some x)) s = .next ({ t with
            heads := t.heads.set h { r with idle := some new, resurvey := true } }.raise
              .resurveyWanted (.head h)))) ∧
    ((s.headRec h).link ≠ .settling ∨ expired s.clock (s.headRec h).settleAt = false →
      exec (.settleDeadline h) s = .next s) ∧
    ((s.headRec h).link = .settling → expired s.clock (s.headRec h).settleAt = true →
      exec (.settleDeadline h) s = .next { s with
        heads := s.heads.set h { s.headRec h with link := .standby, settleAt := none } })

/-! ## Contacts -/

/-- R68, R69, R46: a contact whose tag does not resolve is answered STALE on any head, and one on a head that is not in
service DEFER; the frame counts as presence and no context is touched. R83, R46: the ANSWER is discarded where the head is
ABSENT, as it is for a contact that waited while its link was lost (log 19). R66, R67, R77, R79: the stages of a contact that
resolves, on a head in service, in their order: the verdict, the quality update, the position, a REPORT's intake, the loss
deadline, the evaluation, and the ANSWER last, with the verdict and the head that stage 3 decided. -/
def Obligations.ContactsRunTheirStages : Prop :=
  (∀ (a : HeadNum) (tag : Half) (x : Byte) (p : Option Half) (q : ReportPayload) (s : State) (i : Instr),
    s.resetLow = false → i = .arrival a tag x p ∨ i = .report a tag x q →
      let t := s.hearing a
      let answered := fun v : Verdict =>
        { t with headTx :=
            if (t.headRec a).link = .absent then s.headTx else queueOn s.headTx a [.answer tag v none] }
      (s.resolve tag = none →
        exec i s = .next (answered .stale)) ∧
      (s.resolve tag ≠ none → s.inService a = false → exec i s = .next (answered .defer))) ∧
  ∀ (a : HeadNum) (tag : Half) (x : Byte) (s : State) (n : CtxNum),
    s.resetLow = false → s.resolve tag = some n → s.inService a = true →
      let judged := (s.hearing a).giveVerdict a n
      let measured := judged.1.qualityUpdate a n x
      let answered := fun w : State =>
        { w with headTx := queueOn w.headTx a [.answer tag judged.2.1 judged.2.2] }
      (∀ p : Option Half,
        exec (.arrival a tag x p) s =
          .next (answered (((measured.capturePosition n p).restartLoss n).evaluateAt a n))) ∧
      ∀ q : ReportPayload,
        exec (.report a tag x q) s = .next (answered (((measured.intake n q).restartLoss n).evaluateAt a n))

/-- R70 to R74, R79: the table of the verdicts, with the head that the ANSWER names, and what stage 3 moves. -/
def Obligations.VerdictsFollowTheState : Prop :=
  ∀ (a : HeadNum) (n : CtxNum) (s : State),
    let c := s.ctx n
    let room : Prop := (s.headRec a).load < (s.headRec a).capacity ∧ (c.cls = some .crane → c.slotNeed ≤ s.freeCount a)
    let homeless : Prop := c.state = .orphan ∨ c.state = .silent ∧ c.serving = none
    (c.state = .active → c.serving = some a → s.giveVerdict a n = (s, .accept, some a)) ∧
    (c.state = .active → c.serving ≠ some a → s.giveVerdict a n = (s, .redirect, c.serving)) ∧
    (c.state = .moving → c.target = some a → s.giveVerdict a n = (s.confirm n a, .confirm, some a)) ∧
    (c.state = .moving → c.target ≠ some a → c.serving = some a → s.giveVerdict a n = (s, .accept, some a)) ∧
    (c.state = .moving → c.target ≠ some a → c.serving ≠ some a → s.giveVerdict a n = (s, .redirect, c.target)) ∧
    (c.state = .silent → c.serving = some a → s.giveVerdict a n = (s.returnFromSilence n, .accept, some a)) ∧
    (∀ h, c.state = .silent → c.serving = some h → h ≠ a →
      s.giveVerdict a n = (s.returnFromSilence n, .redirect, some h)) ∧
    (homeless → room → s.giveVerdict a n = (s.rehome a n, .accept, some a)) ∧
    (homeless → ¬ room → s.giveVerdict a n = (s, .full, none))

/-- R72, R73, R75, R132: a return from silence and a re-home, whole: the record, the deadlines and the due list of an entry
into ACTIVE, and for a re-home the head's load and the slots. That the mark of R63 is cleared is the model's (log 20). -/
def Obligations.ContextsEnterActive : Prop :=
  ∀ (a : HeadNum) (n : CtxNum) (s : State) (k : TermClass), (s.ctx n).PartsLawful → (s.ctx n).cls = some k →
    let c := s.ctx n
    let entered := fun r : Context =>
      { r.dueAt (match k, c.reefer with
          | .reefer, some q => some (after s.clock (1000 * q.period))
          | _, _ => none) with
        state := .active, cause := none, awaitsServing := false
        lossAt := if k = .crane then some (after s.clock s.params.lossWindow) else r.lossAt }
    let placed := fun r : Context =>
      if k = .reefer then s.placedInDueList n (entered r)
      else { s with contexts := s.contexts.set n (entered r) }
    s.returnFromSilence n = placed c ∧
    (s.inService a = true →
      s.rehome a n = { placed { c with serving := some a, orphanAt := none } with
        heads := s.heads.set a { s.headRec a with load := (s.headRec a).load + 1 }
        plans := if k = .crane then s.plans.set a ((s.plan a).fill (s.lowestFree a c.slotNeed) (.active n)) else s.plans
        headTx := if k = .crane then
            queueOn s.headTx a (planMessages (s.lowestFree a c.slotNeed) (.active (s.tag n)))
          else s.headTx })

/-- R110, R111, R135: the confirmation of a handover by its target: the record, the two loads, the slots of a CRANE and their
PLAN messages, each on its own link; with no source, the target's side alone. -/
def Obligations.ConfirmationMovesTheContext : Prop :=
  ∀ (a : HeadNum) (n : CtxNum) (s : State), (s.ctx n).serving ≠ some a →
    let c := s.ctx n
    let crane : Prop := c.cls = some .crane
    ∃ t, s.confirm n a = t ∧
      t = { s with
        contexts := s.contexts.set n { c with state := .active, serving := some a, target := none, confirmAt := none }
        heads := t.heads, plans := t.plans, headTx := t.headTx } ∧
      ∀ h : HeadNum,
        t.headRec h = { s.headRec h with
          load :=
            if h = a then (s.headRec h).load + 1
            else if c.serving = some h then (s.headRec h).load - 1 else (s.headRec h).load } ∧
        (crane →
          (∀ i : SlotNum, (t.plan h)[i] =
            if h = a ∧ (s.plan h)[i] = .pending n then .active n
            else if c.serving = some h ∧ (s.plan h)[i] = .active n then .free else (s.plan h)[i]) ∧
          t.headTx[h] = s.headTx[h] ++
            (if s.inService h = false then []
            else if h = a then planMessages ((s.plan h).slotsWith (.pending n)) (.active (s.tag n))
            else if c.serving = some h then planMessages ((s.plan h).slotsWith (.active n)) .free else [])) ∧
        (¬ crane → t.plan h = s.plan h ∧ t.headTx[h] = s.headTx[h])

/-- R76, R85, R87, R88, R90: the quality update of a contact. An entry of the head is filtered; a new head gains an entry,
in ascending order of heads, with the first sample at full weight, and one entry gives way in a full list. -/
def Obligations.QualityUpdateWritesTheEntry : Prop :=
  ∀ (a : HeadNum) (n : CtxNum) (x : Byte) (s : State) (floor : Nat),
    (s.headRec a).floor = some floor → (s.ctx n).EntriesLawful →
    let c := s.ctx n
    let m : Int := max (-64) (min 127 ((x.toNat : Int) - floor))
    let w := s.params.weight.of c.cls
    let staleAt := some (after s.clock (s.params.entryLifetime + 1))
    ∃ l, s.qualityUpdate a n x = { s with contexts := s.contexts.set n { c with entries := l } } ∧
      ((∃ e ∈ c.entries, e.head = a) →
        l = c.entries.map fun e =>
          if e.head = a then
            { e with f := e.f + (8 * m - e.f).tdiv (2 ^ w), last := s.clock, staleAt := staleAt, stale := false }
          else e) ∧
      ((∀ e ∈ c.entries, e.head ≠ a) →
        l.Pairwise (fun y z => y.head < z.head) ∧
        ∀ e, e ∈ l ↔
          e = { head := a, f := 8 * m, last := s.clock, count := 0, staleAt := staleAt, stale := false } ∨
          (e ∈ c.entries ∧ (c.entries.length < 4 ∨ victim s.clock c.serving c.target c.entries ≠ some e)))

/-- R90, R91: the victim among the entries of a list of different heads. A full list always has one. -/
def Obligations.VictimsGiveWayInOrder : Prop :=
  ∀ (now : Time) (serving target : Option HeadNum) (l : List Entry), l.Pairwise (fun y z => y.head ≠ z.head) →
    let isOpen := fun e : Entry => e ∈ l ∧ serving ≠ some e.head ∧ target ≠ some e.head
    let older := fun y z : Entry =>
      (now - z.last).toNat < (now - y.last).toNat ∨ (now - y.last).toNat = (now - z.last).toNat ∧ z.head < y.head
    (∀ v, victim now serving target l = some v ↔
      isOpen v ∧
      (((∃ e, isOpen e ∧ e.stale = true) ∧ v.stale = true ∧
          ∀ e, isOpen e → e.stale = true → e ≠ v → older v e) ∨
        ((∀ e, isOpen e → e.stale = false) ∧
          ∀ e, isOpen e → e ≠ v → v.f < e.f ∨ v.f = e.f ∧ older v e))) ∧
    (3 ≤ l.length → ∃ v, victim now serving target l = some v)

/-- R89: the filter moves F toward 8M and never past it, keeps it within the law's range, stands still exactly inside the
dead band, treats a rising and a falling gap alike, and brings F under a steady margin to within the dead band. -/
def Obligations.FilterStaysInRange : Prop :=
  ∀ (f m : Int) (w : Nat), -512 ≤ f → f ≤ 1016 → -64 ≤ m → m ≤ 127 →
    let f' := filterStep f m w
    (min f (8 * m) ≤ f' ∧ f' ≤ max f (8 * m)) ∧ (-512 ≤ f' ∧ f' ≤ 1016) ∧
    (f' = f ↔ (-(2 ^ w : Int) < 8 * m - f ∧ 8 * m - f < 2 ^ w)) ∧
    (w = 0 → f' = 8 * m) ∧
    filterStep (-f) (-m) w = -f' ∧
    ∃ k : Nat, ∀ j, k ≤ j →
      let settled := Nat.repeat (fun y => filterStep y m w) j f
      (settled - 8 * m).natAbs ≤ 2 ^ w - 1 ∧
      (8 * m ≤ f → 8 * m ≤ settled) ∧ (f ≤ 8 * m → settled ≤ 8 * m)

/-- R92, R76, R78, R80: the stale mark at its deadline, the position of a crane, and stage 6. That an expiry sent before its
deadline does nothing is the model's (log 2). -/
def Obligations.MarksPositionsAndLossDeadlines : Prop :=
  ∀ (s : State) (n : CtxNum),
    (∀ h : HeadNum, s.resetLow = false →
      exec (.staleDeadline n h) s = .next { s with
        contexts := s.contexts.set n { s.ctx n with
          entries := (s.ctx n).entries.map fun e =>
            if e.head = h ∧ expired s.clock e.staleAt = true then { e with stale := true, staleAt := none } else e } }) ∧
    (s.capturePosition n none = s ∧
      ∀ p, ((s.ctx n).crane = none → s.capturePosition n (some p) = s) ∧
        ∀ part, (s.ctx n).crane = some part →
          s.capturePosition n (some p) = { s with
            contexts := s.contexts.set n { s.ctx n with crane := some { part with position := some p } } }) ∧
    ((s.ctx n).cls = some .crane → (s.ctx n).state = .active ∨ (s.ctx n).state = .moving →
      s.restartLoss n = { s with
        contexts := s.contexts.set n { s.ctx n with lossAt := some (after s.clock s.params.lossWindow) } }) ∧
    ((s.ctx n).cls ≠ some .crane ∨ ((s.ctx n).state ≠ .active ∧ (s.ctx n).state ≠ .moving) → s.restartLoss n = s)

/-! ## Handovers -/

/-- R99 to R104: the evaluation of an ACTIVE context: who is eligible, who counts, and who is chosen. No other context is
evaluated. R78: stage 7 evaluates at every contact, from any head. R63: a contact from the serving head clears the mark of a
context that R63 returned to ACTIVE; that a contact from another head before it is evaluated too, by R78, R99 and R103, is how
the model reads R63 beside them (DEDUCED, log 20). -/
def Obligations.EvaluationCountsAndChooses : Prop :=
  ∀ (s : State) (n : CtxNum),
    let c := s.ctx n
    (∀ a : HeadNum,
      (c.serving = some a →
        s.evaluateAt a n =
          { s with contexts := s.contexts.set n { c with awaitsServing := false } }.evaluate n) ∧
      (c.serving ≠ some a → s.evaluateAt a n = s.evaluate n)) ∧
    (c.state ≠ .active ∨ c.serving = none → s.evaluate n = s) ∧
    ∀ (h : HeadNum) (own : Entry) (k : TermClass),
      c.state = .active → c.serving = some h → own ∈ c.entries → own.head = h → c.cls = some k →
      c.entries.Pairwise (fun y z => y.head < z.head) →
      let value := fun e : Entry => e.f + (if s.preferred n = some e.head then (s.params.bonus.get k : Int) else 0)
      let count := fun e : Entry =>
        if e.head ≠ h ∧ e.stale = false ∧ s.shadowed e.head = false ∧
            (s.headRec e.head).load < (s.headRec e.head).capacity ∧ (k = .crane → c.slotNeed ≤ s.freeCount e.head) ∧
            value own + s.params.hysteresis.get k ≤ value e then
          min (e.count + 1) (s.params.ttt.get k)
        else 0
      let ready := fun e : Entry => e ∈ c.entries ∧ e.head ≠ h ∧ count e = s.params.ttt.get k
      let counted : State := { s with
        contexts := s.contexts.set n { c with entries := c.entries.map fun e => { e with count := count e } } }
      ((∀ e, ¬ ready e) → s.evaluate n = counted) ∧
      ∀ e, ready e → (∀ d, ready d → d ≠ e → value d < value e ∨ value d = value e ∧ e.head < d.head) →
        s.evaluate n = counted.startHandover n h e.head

/-- R105 to R107, R134: the start of a handover. -/
def Obligations.HandoverStartsWithItsOrder : Prop :=
  ∀ (s : State) (n : CtxNum) (h target : HeadNum) (k : TermClass),
    s.inService h = true → s.inService target = true → h ≠ target → (s.ctx n).cls = some k →
      let c := s.ctx n
      let slots := if k = .crane then s.lowestFree target c.slotNeed else []
      s.startHandover n h target = { s with
        contexts := s.contexts.set n { c with
          state := .moving, target := some target
          confirmAt := some (after s.clock (s.params.confirmWindow.get k))
          entries := c.entries.map fun e => { e with count := 0 } }
        plans := if k = .crane then s.plans.set target ((s.plan target).fill slots (.pending n)) else s.plans
        headTx := queueOn (queueOn s.headTx target (planMessages slots (.pending (s.tag n)))) h
          [.order (s.tag n) target slots] }

/-- R101, R122, R126: the preferred head of a context by its last position, and the shadowing of a head. -/
def Obligations.PreferredHeadsAndShadows : Prop :=
  (∀ (s : State) (n : CtxNum), s.ZonesLawful →
    ((∀ part, (s.ctx n).crane = some part → part.position = none) → s.preferred n = none) ∧
    ∀ (part : CranePart) (p : Half), (s.ctx n).crane = some part → part.position = some p →
      let inside := fun z : ZoneWindow =>
        z.enabled = true ∧ z.base.toNat ≤ p.toNat ∧ p.toNat ≤ z.base.toNat + 256 * 2 ^ z.sizeCode.val - 1
      ((∀ w, ¬ inside (s.zone w)) → s.preferred n = none) ∧
      ∀ w, inside (s.zone w) →
        ∃ q : Fin 4, q.val = (p.toNat - (s.zone w).base.toNat) / (256 * 2 ^ (s.zone w).sizeCode.val / 4) ∧
          s.preferred n = (s.zone w).quarters[q]) ∧
  ∀ (s : State) (h : HeadNum),
    s.shadowed h = true ↔
      (s.headRec h).side = .waterside ∧
      ∃ p, (s.headRec h).position = some p ∧
        ∃ w : Fin 4, (s.vessel w).enabled = true ∧ (s.vessel w).start.toNat ≤ p.toNat ∧
          p.toNat ≤ (s.vessel w).start.toNat + (s.vessel w).length - 1

/-- R112, R113, R136: the confirmation deadline of a MOVING context when it is reached, and before (log 2). -/
def Obligations.ConfirmationDeadlineFailsTheHandover : Prop :=
  ∀ (s : State) (n : CtxNum), s.resetLow = false →
    let c := s.ctx n
    (c.state ≠ .moving ∨ expired s.clock c.confirmAt = false → exec (.confirmationDeadline n) s = .next s) ∧
    ∀ target, c.state = .moving → expired s.clock c.confirmAt = true → c.target = some target →
      s.inService target = true →
      let crane : Prop := c.cls = some .crane
      let mine := (s.plan target).slotsWith (.pending n)
      let plans := if crane then s.plans.set target ((s.plan target).fill mine .free) else s.plans
      let headTx := if crane then queueOn s.headTx target (planMessages mine .free) else s.headTx
      let failed : Context := { c with state := .active, target := none, confirmAt := none }
      (c.serving ≠ none →
        exec (.confirmationDeadline n) s = .next ({ s with
          contexts := s.contexts.set n failed, plans := plans, headTx := headTx }.raise
            .handoverFailed (.context n))) ∧
      (c.serving = none →
        exec (.confirmationDeadline n) s = .next (({ s with
          contexts := s.contexts.set n { failed.dueAt none with
            state := .orphan, lossAt := none
            orphanAt := some (after s.clock (1000 * s.params.orphanLimit)) }
          dueList := s.dueList.filter (· ≠ n), plans := plans, headTx := headTx }.raise
            .handoverFailed (.context n)).raise .contextOrphaned (.context n)))

/-- R81, R82, R152, R153, R113: how a context falls silent at its loss deadline, its orphan deadline or its due expiry, a
handover in flight abandoned first; and that nothing happens before (log 2). -/
def Obligations.ContextsFallSilent : Prop :=
  ∀ (s : State) (n : CtxNum), s.resetLow = false →
    let c := s.ctx n
    let silent := fun cause : SilentCause => { s with
      contexts := s.contexts.set n { c.dueAt none with
        state := .silent, target := none, confirmAt := none, lossAt := none, orphanAt := none, cause := some cause }
      dueList := s.dueList.filter (· ≠ n) }
    (c.target = none → c.confirmAt = none →
      (c.state = .active → expired s.clock c.lossAt = true →
        exec (.lossDeadline n) s = .next ((silent .linkLost).raise .contextSilent (.context n))) ∧
      (c.state = .orphan → expired s.clock c.orphanAt = true →
        exec (.orphanDeadline n) s = .next ((silent .orphaned).raise .contextSilent (.context n))) ∧
      (c.state = .active → s.lateReefer = some n →
        exec .dueExpiry s = .next ((silent .reportMissed).raise .contextSilent (.context n)))) ∧
    (∀ target, c.state = .moving → c.target = some target → s.inService target = true →
      let mine := (s.plan target).slotsWith (.pending n)
      (c.cls = some .crane → expired s.clock c.lossAt = true →
        exec (.lossDeadline n) s = .next (({ silent .linkLost with
          plans := s.plans.set target ((s.plan target).fill mine .free)
          headTx := queueOn s.headTx target (planMessages mine .free) }.raise
            .handoverFailed (.context n)).raise .contextSilent (.context n))) ∧
      (c.cls = some .reefer → s.lateReefer = some n →
        exec .dueExpiry s = .next (((silent .reportMissed).raise .handoverFailed (.context n)).raise
          .contextSilent (.context n)))) ∧
    ((c.state ≠ .active ∧ c.state ≠ .moving) ∨ expired s.clock c.lossAt = false →
      exec (.lossDeadline n) s = .next s) ∧
    (c.state ≠ .orphan ∨ expired s.clock c.orphanAt = false → exec (.orphanDeadline n) s = .next s) ∧
    (s.lateReefer = none → exec .dueExpiry s = .next s) ∧
    (s.lateReefer = some n ↔
      s.dueList.head? = some n ∧ ∃ due, c.due = some due ∧ reached s.clock (after due (1000 * s.params.grace)) = true)

/-! ## Reefers -/

/-- R142, R143, R144, R149, R151: the intake of a report. A duplicate, and a report for a context with no reefer part,
changes nothing. -/
def Obligations.ReportsAreTakenIn : Prop :=
  ∀ (s : State) (n : CtxNum) (p : ReportPayload),
    ((s.ctx n).reefer = none → s.intake n p = s) ∧
    ∀ r, (s.ctx n).reefer = some r →
      (r.lastSeq = some p.sequence → s.intake n p = s) ∧
      (r.lastSeq ≠ some p.sequence →
        let limit := fun w : Half => max (-500) (min 500 w.toInt)
        let supply := p.supply.map limit
        let setpoint := if p.setpoint.isSome then p.setpoint.map limit else r.setpoint
        let ind := r.ind.after p.kind r.supply supply setpoint r.band r.rise p.faults
        let moves : Prop := p.kind ≠ .alarm ∧ r.due ≠ none
        let c : Context := { s.ctx n with reefer := some { r with
          lastSeq := some p.sequence, lastReport := some s.clock, supply := supply, ret := p.ret.map limit
          setpoint := setpoint, faults := p.faults, kind := some p.kind, ind := ind
          due := if moves then some (after s.clock (1000 * r.period)) else r.due } }
        let stored := if moves then s.placedInDueList n c else { s with contexts := s.contexts.set n c }
        let condition : Prop :=
          r.ind.warm = false ∧ ind.warm = true ∨ r.ind.cold = false ∧ ind.cold = true ∨
            r.ind.fault = false ∧ ind.fault = true
        (condition → s.intake n p = stored.raise .reeferCondition (.context n)) ∧
        (¬ condition → s.intake n p = stored))

/-- R145 to R148: the four indicators after a new report, by its kind. -/
def Obligations.IndicatorsFollowTheKind : Prop :=
  ∀ (old : Indicators) (kind : ReportKind) (previous supply setpoint : Option Int) (band rise : Nat) (faults : FaultSet),
    let new := old.after kind previous supply setpoint band rise faults
    let bothKnown : Prop := supply ≠ none ∧ setpoint ≠ none
    (kind = .periodic ∨ kind = .alarm →
      (¬ bothKnown → new.warm = old.warm ∧ new.cold = old.cold) ∧
      ∀ t sp : Int, supply = some t → setpoint = some sp →
        (new.warm = true ↔ sp + band < t) ∧ (new.cold = true ↔ t < sp - band)) ∧
    (kind = .defrost →
      new.warm = false ∧ (¬ bothKnown → new.cold = old.cold) ∧
      ∀ t sp : Int, supply = some t → setpoint = some sp → (new.cold = true ↔ t < sp - band)) ∧
    (kind = .power → new.warm = old.warm ∧ new.cold = old.cold) ∧
    (kind = .periodic → (new.rising = true ↔ ∃ t u : Int, previous = some t ∧ supply = some u ∧ (rise : Int) ≤ u - t)) ∧
    (kind = .alarm → new.rising = old.rising) ∧ (kind = .defrost ∨ kind = .power → new.rising = false) ∧
    (kind = .defrost → new.fault = old.fault) ∧
    (kind ≠ .defrost →
      (new.fault = true ↔ faults.compressor = true ∨ faults.sensor = true ∨ faults.powerOff = true))

/-- R150, R169: a context placed in a due list that is in order, its due times within half the clock's range of one another,
leaves it in order; and which of two due times comes first. -/
def Obligations.DueListStaysInOrder : Prop :=
  (∀ (s : State) (a b : CtxNum) (x y : Time), (s.ctx a).due = some x → (s.ctx b).due = some y →
    (s.dueBefore a b = true ↔ earlier x y = true ∨ x = y ∧ a < b)) ∧
  ∀ (s : State) (n : CtxNum) (l : List CtxNum) (base : Time),
    n ∉ l → l.Pairwise (fun a b => s.dueBefore a b = true) →
    (∀ m ∈ n :: l, ∃ d, (s.ctx m).due = some d ∧ (d - base).toNat < 2 ^ 31) →
      (insertDue s.dueBefore n l).Pairwise (fun a b => s.dueBefore a b = true) ∧
      (insertDue s.dueBefore n l).Perm (n :: l)

/-! ## Zones, parameters, events, the clock, FLUSH -/

/-- R119, R120: the checks of ZONE_SET in their order, and the replacement of the window. -/
def Obligations.ZoneWindowsAreChecked : Prop :=
  ∀ (ch : ChanNum) (f : ZoneSetFields) (s : State), s.Ready ch →
    let answers := fun r : Reply => exec (.zoneSet ch (.fields f)) s = .next (s.answer ch 0x18 r)
    (7 < f.window.toNat ∨ 7 < f.sizeCode.toNat ∨ 1 < f.enabled.toNat ∨
      (∃ q : Fin 4, 15 < (f.quarters[q]).toNat ∧ f.quarters[q] ≠ 0xFF) → answers .badField) ∧
    ∀ (w : Fin 8) (z : ZoneWindow),
      f.window.toNat = w.val → f.sizeCode.toNat = z.sizeCode.val → (f.enabled = if z.enabled then 1 else 0) →
      f.base = z.base → (∀ q : Fin 4, headChoiceOf f.quarters[q] = some z.quarters[q]) →
      let size := 256 * 2 ^ z.sizeCode.val
      let clash : Prop := ∃ v, v ≠ w ∧ (s.zone v).enabled = true ∧
        ∃ p : Nat, z.holds p = true ∧ (s.zone v).holds p = true
      let stored := exec (.zoneSet ch (.fields f)) s =
        .next ({ s with zones := s.zones.set w z }.answer ch 0x18 .done)
      (z.enabled = false → stored) ∧
      (z.enabled = true →
        (z.base.toNat % size ≠ 0 ∨ 65536 < z.base.toNat + size → answers .align) ∧
        (z.base.toNat % size = 0 → z.base.toNat + size ≤ 65536 →
          (clash → answers .overlap) ∧ (¬ clash → stored)))

/-- R121, R125, R139: ZONE_READ, VESSEL_SET, VESSEL_READ and PLAN_READ. -/
def Obligations.WindowsAndPlansAreRead : Prop :=
  (∀ (ch : ChanNum) (b : Byte) (s : State), s.Ready ch →
    (7 < b.toNat → exec (.zoneRead ch (.fields b)) s = .next (s.answer ch 0x19 .badField)) ∧
    (∀ w : Fin 8, b.toNat = w.val →
      exec (.zoneRead ch (.fields b)) s = .next (s.answer ch 0x19 (.recordZone w (s.zone w)))) ∧
    (3 < b.toNat → exec (.vesselRead ch (.fields b)) s = .next (s.answer ch 0x1B .badField)) ∧
    (∀ w : Fin 4, b.toNat = w.val →
      exec (.vesselRead ch (.fields b)) s = .next (s.answer ch 0x1B (.recordVessel w (s.vessel w)))) ∧
    (15 < b.toNat → exec (.planRead ch (.fields b)) s = .next (s.answer ch 0x1C .badField)) ∧
    ∀ h : HeadNum, b.toNat = h.val →
      exec (.planRead ch (.fields b)) s = .next (s.answer ch 0x1C (.recordPlan h
        ((List.finRange 32).map fun i => ⟨i, (s.plan h)[i], match (s.plan h)[i] with
          | .free => none
          | .active n | .pending n => some (s.tag n)⟩)))) ∧
  ∀ (ch : ChanNum) (f : VesselSetFields) (s : State), s.Ready ch →
    (3 < f.window.toNat ∨ 1 < f.enabled.toNat →
      exec (.vesselSet ch (.fields f)) s = .next (s.answer ch 0x1A .badField)) ∧
    ∀ (w : Fin 4) (enabled : Bool), f.window.toNat = w.val → (f.enabled = if enabled then 1 else 0) →
      let length := max 1 (min 65535 f.length.toNat)
      exec (.vesselSet ch (.fields f)) s = .next ({ s with
        vessels := s.vessels.set w ⟨enabled, f.start, length⟩ }.answer ch 0x1A (.doneValue length))

/-- R163, R164: the parameters, their ranges and defaults, PARAM_SET and PARAM_READ. -/
def Obligations.ParametersAreClamped : Prop :=
  let tripled := fun (p : ClassParam) => [ParamSel.perClass p .crane, .perClass p .reefer, .perClass p .general]
  let selectors := tripled .weight ++ tripled .hysteresis ++ tripled .ttt ++ tripled .confirmWindow ++ tripled .bonus ++
    [.single .lossWindow, .single .orphanLimit, .single .grace, .single .holdLimit, .single .entryLifetime,
      .single .driftLimit]
  selectors.map Params.default.get =
    [1, 3, 2, 24, 48, 32, 2, 4, 3, 60, 2000, 500, 32, 0, 0, 120, 10, 30, 50, 5000, 8] ∧
  selectors.map ParamSel.range =
    [(0, 4), (0, 4), (0, 4), (0, 255), (0, 255), (0, 255), (1, 15), (1, 15), (1, 15),
      (10, 5000), (10, 5000), (10, 5000), (0, 255), (0, 255), (0, 255),
      (20, 2000), (1, 600), (0, 600), (1, 1000), (100, 60000), (2, 64)] ∧
  (∀ (parameter cls : Byte) (sel : ParamSel),
    paramOf parameter cls = some sel ↔ parameter = sel.byte ∧ cls = sel.classByte) ∧
  (∀ (p : Params) (sel other : ParamSel) (v : Nat),
    (p.put sel v).get other = if sel = other then v else p.get other) ∧
  ∀ (ch : ChanNum) (parameter cls : Byte) (v : BitVec 32) (s : State), s.Ready ch →
    (paramOf parameter cls = none →
      exec (.paramSet ch (.fields ⟨parameter, cls, v⟩)) s = .next (s.answer ch 0x20 .badField) ∧
      exec (.paramRead ch (.fields ⟨parameter, cls⟩)) s = .next (s.answer ch 0x21 .badField)) ∧
    ∀ sel, paramOf parameter cls = some sel →
      let applied := max sel.range.1 (min sel.range.2 v.toNat)
      exec (.paramSet ch (.fields ⟨parameter, cls, v⟩)) s =
        .next ({ s with params := s.params.put sel applied }.answer ch 0x20 (.value sel applied)) ∧
      exec (.paramRead ch (.fields ⟨parameter, cls⟩)) s =
        .next (s.answer ch 0x21 (.value sel (s.params.get sel)))

/-- R165 to R168: a raise, the class that EVENT_READ chooses and what it then changes, EVENT_SETUP, and the ATTN output. -/
def Obligations.EventsAreReadByLevel : Prop :=
  (∀ (s : State) (c : EventClass) (x : Subject),
    s.raise c x = { s with events := s.events.set c.num { s.eventRec c with pending := true, subject := some x } }) ∧
  (∀ (s : State) (c d : EventClass), s.eventRec c = s.events[c.num] ∧ (c.num = d.num → c = d)) ∧
  (∀ s : State, s.attn = true ↔
    s.resetLow = false ∧ ∃ c, (s.eventRec c).pending = true ∧ (s.eventRec c).masked = false) ∧
  (∀ (ch : ChanNum) (s : State), s.Ready ch →
    let offered := fun c : EventClass => (s.eventRec c).pending = true ∧ (s.eventRec c).masked = false
    ((∀ c, ¬ offered c) →
      exec (.eventRead ch (.fields ())) s = .next (s.answer ch 0x22 (.noEvent s.clock))) ∧
    ∀ c, offered c →
      (∀ d, offered d →
        (s.eventRec c).level < (s.eventRec d).level ∨
          (s.eventRec c).level = (s.eventRec d).level ∧ c.num ≤ d.num) →
      exec (.eventRead ch (.fields ())) s = .next ({ s with
        events := s.events.set c.num { s.eventRec c with pending := false } }.answer ch 0x22
          (.event c (s.eventRec c).subject s.clock))) ∧
  ∀ (ch : ChanNum) (f : EventSetupFields) (s : State), s.Ready ch →
    (8 < f.cls.toNat ∨ 1 < f.masked.toNat →
      exec (.eventSetup ch (.fields f)) s = .next (s.answer ch 0x23 .badField)) ∧
    ∀ (c : EventClass) (masked : Bool), f.cls.toNat = c.num.val → (f.masked = if masked then 1 else 0) →
      exec (.eventSetup ch (.fields f)) s = .next ({ s with
        events := s.events.set c.num { s.eventRec c with level := min 7 f.level.toNat, masked := masked } }.answer
          ch 0x23 (.doneEvent c (min 7 f.level.toNat) masked))

/-- R169: the part clock counts a millisecond at a time, modulo 2^32; when a deadline is reached; which of two stored times
is earlier. -/
def Obligations.ClockAndDeadlines : Prop :=
  (∀ s : State, s.resetLow = false →
    ∃ t, exec .partClockTick s = .next t ∧ t = { s with clock := t.clock } ∧
      t.clock.toNat = (s.clock.toNat + 1) % 2 ^ 32) ∧
  (∀ (t : Time) (ms : Nat), (after t ms).toNat = (t.toNat + ms) % 2 ^ 32) ∧
  (∀ now deadline : Time, reached now deadline = true ↔ (now.toNat + 2 ^ 32 - deadline.toNat) % 2 ^ 32 < 2 ^ 31) ∧
  (∀ now : Time, expired now none = false ∧ ∀ d, expired now (some d) = reached now d) ∧
  ∀ a b : Time, earlier a b = true ↔ a ≠ b ∧ (b.toNat + 2 ^ 32 - a.toNat) % 2 ^ 32 < 2 ^ 31

/-- R171 with R22, R39, R65, R84, R98, R117, R141, R158: FLUSH. The CANCELLED answers of the other channels go in ascending
channel number before DONE; PLAN_CLEAR goes to each head in service; what is not named here is kept. -/
def Obligations.FlushEmptiesTheStore : Prop :=
  ∀ (ch : ChanNum) (s : State), s.Ready ch →
    exec (.flush ch (.fields ())) s = .next { s with
      contexts := Vector.ofFn fun n : CtxNum =>
        if (s.ctx n).state = .free then s.ctx n else Context.freeIn ((s.ctx n).gen + 1)
      idMap := [], freeList := List.finRange 2048, craneCount := 0, dueList := []
      waits := Vector.replicate 2048 []
      channels := Vector.ofFn fun c : ChanNum =>
        let kept : Channel := { s.chan c with held := none, holdAt := none }
        if c ≠ ch ∧ ((s.chan c).state = .parked ∨ (s.chan c).state = .sweeping) then
          { kept with state := .idle, parkedOn := none, parkAt := none, sweep := none, idleAt := none }
        else kept
      heads := Vector.ofFn fun h : HeadNum => { s.headRec h with load := 0 }
      plans := Vector.replicate 16 (Vector.replicate 32 .free)
      controlTx := s.controlTx ++
        ((List.finRange 4).filter fun c => decide (c ≠ ch ∧ (s.chan c).state = .parked)).map
          (fun c => ⟨c, 0x06, .cancelled⟩) ++ [⟨ch, 0x24, .done⟩]
      headTx := Vector.ofFn fun h : HeadNum =>
        s.headTx[h] ++ if s.inService h = true then [.planClear] else [] }

/-! ## Laws that every step keeps -/

/-- The state after a reset obeys every law of the device. -/
def Obligations.ResetIsLawful : Prop := State.reset.Lawful ∧ State.reset.DueListOrdered

/-- R163, R119, R120, R124, R165, R44, R49, R59: the records outside the contexts stay as their rules say, through every step
and (R46, R47, R175) through the frames that arrive between steps, which keep every law of the device (log 19). -/
def Obligations.RecordsOfTheQuayStayLawful : Prop :=
  (∀ s t : State, step s = .next t →
    (s.ParamsInRange → t.ParamsInRange) ∧ (s.ZonesLawful → t.ZonesLawful) ∧ (s.VesselsLawful → t.VesselsLawful) ∧
    (s.EventsLawful → t.EventsLawful) ∧ (s.HeadsLawful → t.HeadsLawful)) ∧
  (∀ (s : State) (bs : List Byte), s.Lawful → (s.receiveControl bs).Lawful) ∧
  ∀ (s : State) (h : HeadNum) (bs : List Byte),
    (s.HeadsLawful → (s.receiveHead h bs).HeadsLawful) ∧ (s.Lawful → (s.receiveHead h bs).Lawful)

/-- R4, R1 to R3, R146, R150: every context record keeps the table of its state, its ranges, and its place in the due
list. -/
def Obligations.ContextRecordsStayLawful : Prop :=
  ∀ s t : State, step s = .next t →
    s.FreeListLawful → s.ContextsLawful → s.ValuesInRange → s.DueListLawful →
      t.ContextsLawful ∧ t.ValuesInRange ∧ t.DueListLawful

/-- R86, R89: every measurement list keeps at most 4 entries in ascending order of heads, with F and counts in range. -/
def Obligations.MeasurementListsStayLawful : Prop :=
  ∀ s t : State, step s = .next t → s.ParamsInRange → s.EntriesLawful → t.EntriesLawful

/-- R9, R10, R11: the identity map, the free list and the crane count stay what they count. -/
def Obligations.TheStoreStaysConsistent : Prop :=
  ∀ s t : State, step s = .next t →
    s.ContextsLawful → s.FreeListLawful → s.IdMapLawful → s.CraneCountLawful →
      t.FreeListLawful ∧ t.IdMapLawful ∧ t.CraneCountLawful

/-- R23, R24: channels, holds and wait lists stay in step with one another. -/
def Obligations.ChannelsAndHoldsStayLawful : Prop :=
  ∀ s t : State, step s = .next t →
    s.FreeListLawful → s.ChannelsLawful → s.HoldsLawful → t.ChannelsLawful ∧ t.HoldsLawful

/-- R45, R86, R105, R128: from a state that obeys every law, a step keeps loads equal to the contexts served, roles on heads
in service, and the slot plans in step with the cranes. -/
def Obligations.LoadsRolesAndSlotsStayLawful : Prop :=
  ∀ s t : State, step s = .next t → s.Lawful →
    t.LoadsLawful ∧ t.RolesLawful ∧ t.SlotsNamed ∧ t.SlotsCounted

/-- R173 to R178: the bytes of a command's frame are received as one good frame, whose payload is that command. R174: the frame
and its CRC, and what the receiver makes of every run of bytes. R175, R178: what every payload on a head link spells. R160,
R176, R177: what every payload on the control link spells, and which ones are refused for form; that bit 0 of HEAD_SET's
position flag marks the position is the model's (log 18). What the receivers of the links do: frames become waiting commands, unfinished bytes are kept, and a good frame on a
head link counts as presence as it arrives; that it then waits to be taken is read from R83 and R175 (log 19). -/
def Obligations.FramesCarryCommands : Prop :=
  (∀ (i : Instr) (l : Link) (p : List Byte), i.wf = true → encodeCommand i = some (l, p) →
    receiveFrames (frame p) = ([.good p], []) ∧ frameCommand l p = i) ∧
  -- R174: the frame and its CRC
  (∀ p, let n : Byte := BitVec.ofNat 8 p.length; frame p = 0xA5#8 :: n :: (p ++ bytes16 (crc (n :: p)))) ∧
  crc [] = 0xFFFF ∧
  (∀ bs b, crc (bs ++ [b]) =
    [7, 6, 5, 4, 3, 2, 1, 0].foldl (fun (c : Half) i =>
      if c.getLsbD 15 = b.getLsbD i then c <<< 1 else (c <<< 1) ^^^ 0x1021) (crc bs)) ∧
  -- R174: the receiver
  receiveFrames [] = ([], []) ∧ receiveFrames [0xA5] = ([], [0xA5]) ∧
  (∀ b bs, b ≠ 0xA5#8 → receiveFrames (b :: bs) = receiveFrames bs) ∧
  (∀ (n : Byte) (rest : List Byte), n.toNat = 0 ∨ 250 < n.toNat →
    let after := receiveFrames (n :: rest)
    receiveFrames (0xA5#8 :: n :: rest) = (.discarded :: after.1, after.2)) ∧
  (∀ (n : Byte) (rest : List Byte), 1 ≤ n.toNat → n.toNat ≤ 250 → rest.length < n.toNat + 2 →
    receiveFrames (0xA5#8 :: n :: rest) = ([], 0xA5#8 :: n :: rest)) ∧
  (∀ (n : Byte) (p : List Byte) (a b : Byte) (rest : List Byte), 1 ≤ n.toNat → n.toNat ≤ 250 → p.length = n.toNat →
    let after := receiveFrames rest
    receiveFrames (0xA5#8 :: n :: (p ++ a :: b :: rest)) =
      ((if crc (n :: p) = a ++ b then .good p else .discarded) :: after.1, after.2)) ∧
  -- R175, R176: frames that spell no command of their kind
  (∀ (h : HeadNum) (kind : Byte) (rest : List Byte),
    (kind = 0x01 → rest.length ≠ 2) → (kind = 0x02 → rest.length ≠ 6) → (kind = 0x03 → rest.length ≠ 13) →
      frameCommand (.head h) (kind :: rest) = .malformedHeadFrame h) ∧
  (∀ (h : HeadNum) (f x : Byte), 1 < f.toNat → frameCommand (.head h) [0x01, f, x] = .malformedHeadFrame h) ∧
  (∀ (h : HeadNum) (t u x f p q : Byte), 1 < f.toNat →
    frameCommand (.head h) [0x02, t, u, x, f, p, q] = .malformedHeadFrame h) ∧
  (∀ (h : HeadNum) (t u x n k m a b c d e g fs : Byte), 3 < k.toNat ∨ 7 < m.toNat ∨ 7 < fs.toNat →
    frameCommand (.head h) [0x03, t, u, x, n, k, m, a, b, c, d, e, g, fs] = .malformedHeadFrame h) ∧
  -- R178: the head messages, byte by byte
  (∀ (h : HeadNum) (x : Byte), frameCommand (.head h) [0x01, 0, x] = .keepalive h none ∧
    frameCommand (.head h) [0x01, 1, x] = .keepalive h (some x)) ∧
  (∀ (h : HeadNum) (t u x p q : Byte),
    frameCommand (.head h) [0x02, t, u, x, 0, p, q] = .arrival h (t ++ u) x none ∧
    frameCommand (.head h) [0x02, t, u, x, 1, p, q] = .arrival h (t ++ u) x (some (p ++ q))) ∧
  (∀ (h : HeadNum) (t u x n m a b c d e g fs : Byte), m.toNat ≤ 7 → fs.toNat ≤ 7 →
    ∀ k ∈ [(0x00#8, ReportKind.periodic), (0x01, .alarm), (0x02, .defrost), (0x03, .power)],
      frameCommand (.head h) [0x03, t, u, x, n, k.1, m, a, b, c, d, e, g, fs] = .report h (t ++ u) x
        { sequence := n, kind := k.2
          supply := if m.getLsbD 0 then some (a ++ b) else none
          ret := if m.getLsbD 1 then some (c ++ d) else none
          setpoint := if m.getLsbD 2 then some (e ++ g) else none
          faults := ⟨fs.getLsbD 0, fs.getLsbD 1, fs.getLsbD 2⟩ }) ∧
  -- R160, R176, R177: the requests, byte by byte, and every payload that is refused for form
  Instr.requestCodes = [0x01, 0x02, 0x03, 0x04, 0x05, 0x06, 0x07, 0x08, 0x09, 0x0A, 0x0B, 0x0C, 0x10, 0x11, 0x12, 0x13, 0x14,
    0x18, 0x19, 0x1A, 0x1B, 0x1C, 0x20, 0x21, 0x22, 0x23, 0x24] ∧
  (∀ ch : ChanNum,
    let read := fun (code : Byte) (rest : List Byte) =>
      frameCommand .control (BitVec.ofNat 8 ch.val :: code :: rest)
    frameCommand .control [BitVec.ofNat 8 ch.val] = .noCodeRequestFrame ch ∧
    (∀ code rest, code ∉ Instr.requestCodes → read code rest = .illegal ch code) ∧
    -- no field
    (read 0x09 [] = .cancel ch (.fields ()) ∧ read 0x0B [] = .continueSweep ch (.fields ()) ∧
      read 0x0C [] = .stopSweep ch (.fields ()) ∧ read 0x22 [] = .eventRead ch (.fields ()) ∧
      read 0x24 [] = .flush ch (.fields ())) ∧
    (∀ rest, rest ≠ [] →
      read 0x09 rest = .cancel ch .badForm ∧ read 0x0B rest = .continueSweep ch .badForm ∧
      read 0x0C rest = .stopSweep ch .badForm ∧ read 0x22 rest = .eventRead ch .badForm ∧
      read 0x24 rest = .flush ch .badForm) ∧
    -- one byte
    (∀ b,
      read 0x11 [b] = .headEnable ch (.fields b) ∧ read 0x12 [b] = .headDisable ch (.fields b) ∧
      read 0x13 [b] = .headRead ch (.fields b) ∧ read 0x1C [b] = .planRead ch (.fields b) ∧
      read 0x19 [b] = .zoneRead ch (.fields b) ∧ read 0x1B [b] = .vesselRead ch (.fields b)) ∧
    (∀ rest, rest.length ≠ 1 →
      read 0x11 rest = .headEnable ch .badForm ∧ read 0x12 rest = .headDisable ch .badForm ∧
      read 0x13 rest = .headRead ch .badForm ∧ read 0x1C rest = .planRead ch .badForm ∧
      read 0x19 rest = .zoneRead ch .badForm ∧ read 0x1B rest = .vesselRead ch .badForm) ∧
    -- a context number
    (∀ a b,
      read 0x02 [a, b] = .retire ch (.fields (a ++ b)) ∧ read 0x04 [a, b] = .read ch (.fields (a ++ b)) ∧
      read 0x06 [a, b] = .fetch ch (.fields (a ++ b)) ∧ read 0x08 [a, b] = .release ch (.fields (a ++ b))) ∧
    (∀ rest, rest.length ≠ 2 →
      read 0x02 rest = .retire ch .badForm ∧ read 0x04 rest = .read ch .badForm ∧
      read 0x06 rest = .fetch ch .badForm ∧ read 0x08 rest = .release ch .badForm) ∧
    -- requests of a fixed length
    (∀ a b c d e f g h, read 0x03 [a, b, c, d, e, f, g, h] = .find ch (.fields (a ++ b ++ c ++ d ++ e ++ f ++ g ++ h))) ∧
    (∀ rest, rest.length ≠ 8 → read 0x03 rest = .find ch .badForm) ∧
    (∀ classes states conditions head, read 0x0A [classes, states, conditions, head] =
      .sweep ch (.fields { classSet := classes, stateSet := states, condSet := conditions, head := head })) ∧
    (∀ rest, rest.length ≠ 4 → read 0x0A rest = .sweep ch .badForm) ∧
    (∀ head side p q c d,
      read 0x10 [head, side, 0, p, q, c, d] =
        .headSet ch (.fields { head := head, side := side, position := none, capacity := c ++ d }) ∧
      read 0x10 [head, side, 1, p, q, c, d] =
        .headSet ch (.fields { head := head, side := side, position := some (p ++ q), capacity := c ++ d })) ∧
    (∀ head side f p q c d, 1 < f.toNat → read 0x10 [head, side, f, p, q, c, d] = .headSet ch .badForm) ∧
    (∀ rest, rest.length ≠ 7 → read 0x10 rest = .headSet ch .badForm) ∧
    (∀ head a b, read 0x14 [head, a, b] = .survey ch (.fields { head := head, duration := a ++ b })) ∧
    (∀ rest, rest.length ≠ 3 → read 0x14 rest = .survey ch .badForm) ∧
    (∀ window enabled a b size q₀ q₁ q₂ q₃, read 0x18 [window, enabled, a, b, size, q₀, q₁, q₂, q₃] =
      .zoneSet ch (.fields { window := window, enabled := enabled, base := a ++ b, sizeCode := size
                             quarters := #v[q₀, q₁, q₂, q₃] })) ∧
    (∀ rest, rest.length ≠ 9 → read 0x18 rest = .zoneSet ch .badForm) ∧
    (∀ window enabled a b c d, read 0x1A [window, enabled, a, b, c, d] =
      .vesselSet ch (.fields { window := window, enabled := enabled, start := a ++ b, length := c ++ d })) ∧
    (∀ rest, rest.length ≠ 6 → read 0x1A rest = .vesselSet ch .badForm) ∧
    (∀ parameter cls a b c d, read 0x20 [parameter, cls, a, b, c, d] =
      .paramSet ch (.fields { parameter := parameter, cls := cls, value := a ++ b ++ c ++ d })) ∧
    (∀ rest, rest.length ≠ 6 → read 0x20 rest = .paramSet ch .badForm) ∧
    (∀ parameter cls, read 0x21 [parameter, cls] = .paramRead ch (.fields { parameter := parameter, cls := cls })) ∧
    (∀ rest, rest.length ≠ 2 → read 0x21 rest = .paramRead ch .badForm) ∧
    (∀ cls level masked, read 0x23 [cls, level, masked] =
      .eventSetup ch (.fields { cls := cls, level := level, masked := masked })) ∧
    (∀ rest, rest.length ≠ 3 → read 0x23 rest = .eventSetup ch .badForm) ∧
    -- requests with a presence byte
    (∀ rest, rest.length < 12 → read 0x01 rest = .admitReq ch .badForm) ∧
    (∀ rest, rest.length < 3 → read 0x05 rest = .update ch .badForm ∧ read 0x07 rest = .store ch .badForm) ∧
    ∀ (presence : Byte) (rest : List Byte),
      (31 < presence.toNat ∨ rest.length ≠ fieldPlace presence 5 →
        (∀ a b c d e f g h cls head x,
          read 0x01 (a :: b :: c :: d :: e :: f :: g :: h :: cls :: head :: x :: presence :: rest) = .admitReq ch .badForm) ∧
        ∀ a b, read 0x05 (a :: b :: presence :: rest) = .update ch .badForm ∧
          read 0x07 (a :: b :: presence :: rest) = .store ch .badForm) ∧
      (presence.toNat ≤ 31 → rest.length = fieldPlace presence 5 →
        let set := fieldsAt presence rest
        (∀ a b c d e f g h cls head x,
          read 0x01 (a :: b :: c :: d :: e :: f :: g :: h :: cls :: head :: x :: presence :: rest) =
            .admitReq ch (.fields { identity := a ++ b ++ c ++ d ++ e ++ f ++ g ++ h, cls := cls, head := head
                                    sample := x, set := set })) ∧
        ∀ a b, read 0x05 (a :: b :: presence :: rest) = .update ch (.fields { context := a ++ b, set := set }) ∧
          read 0x07 (a :: b :: presence :: rest) = .store ch (.fields { context := a ++ b, set := set }))) ∧
  (∀ (c : Byte) (rest : List Byte), 3 < c.toNat → frameCommand .control (c :: rest) = .channelDiscard c) ∧
  -- the links
  (∀ (s : State) (bs : List Byte), s.resetLow = false →
    let got := receiveFrames (s.controlRx ++ bs)
    s.receiveControl bs = { s with
      controlRx := got.2
      pending := s.pending ++ got.1.map fun x => match x with
        | .good p => frameCommand .control p
        | .discarded => .frameDiscard .control }) ∧
  ∀ (s : State) (h : HeadNum) (bs : List Byte), s.resetLow = false →
    let got := receiveFrames (s.headRx[h] ++ bs)
    let good := got.1.countP (· ≠ .discarded)
    s.receiveHead h bs = { s with
      headRx := s.headRx.set h got.2
      pending := s.pending ++ got.1.map fun x => match x with
        | .good p => frameCommand (.head h) p
        | .discarded => .frameDiscard (.head h)
      heads := if good = 0 then s.heads else s.heads.set h ((s.headRec h).heard s.clock)
      counted := s.counted.set h (s.counted[h] + good) }

end
end

