-- ==== Sys2Proof/Laws/State.lean ====
section
/-! SUPPORT. What each update of the state changes and what it leaves: one lemma per field, or per reader of a field, for
each named update. All are `simp` lemmas, so that no proof unfolds a record update. -/

namespace Sys2Proof.Machine

open Sys2Proof


/-! ### setCtx -/

@[simp] theorem State.setCtx_contexts (s : State) (n : CtxNum) (c : Context) : (s.setCtx n c).contexts = s.contexts.set n c := rfl
@[simp] theorem State.setCtx_pending (s : State) (n : CtxNum) (c : Context) : (s.setCtx n c).pending = s.pending := rfl
@[simp] theorem State.setCtx_resetLow (s : State) (n : CtxNum) (c : Context) : (s.setCtx n c).resetLow = s.resetLow := rfl
@[simp] theorem State.setCtx_clock (s : State) (n : CtxNum) (c : Context) : (s.setCtx n c).clock = s.clock := rfl
@[simp] theorem State.setCtx_idMap (s : State) (n : CtxNum) (c : Context) : (s.setCtx n c).idMap = s.idMap := rfl
@[simp] theorem State.setCtx_freeList (s : State) (n : CtxNum) (c : Context) : (s.setCtx n c).freeList = s.freeList := rfl
@[simp] theorem State.setCtx_craneCount (s : State) (n : CtxNum) (c : Context) : (s.setCtx n c).craneCount = s.craneCount := rfl
@[simp] theorem State.setCtx_channels (s : State) (n : CtxNum) (c : Context) : (s.setCtx n c).channels = s.channels := rfl
@[simp] theorem State.setCtx_waits (s : State) (n : CtxNum) (c : Context) : (s.setCtx n c).waits = s.waits := rfl
@[simp] theorem State.setCtx_heads (s : State) (n : CtxNum) (c : Context) : (s.setCtx n c).heads = s.heads := rfl
@[simp] theorem State.setCtx_plans (s : State) (n : CtxNum) (c : Context) : (s.setCtx n c).plans = s.plans := rfl
@[simp] theorem State.setCtx_zones (s : State) (n : CtxNum) (c : Context) : (s.setCtx n c).zones = s.zones := rfl
@[simp] theorem State.setCtx_vessels (s : State) (n : CtxNum) (c : Context) : (s.setCtx n c).vessels = s.vessels := rfl
@[simp] theorem State.setCtx_dueList (s : State) (n : CtxNum) (c : Context) : (s.setCtx n c).dueList = s.dueList := rfl
@[simp] theorem State.setCtx_params (s : State) (n : CtxNum) (c : Context) : (s.setCtx n c).params = s.params := rfl
@[simp] theorem State.setCtx_events (s : State) (n : CtxNum) (c : Context) : (s.setCtx n c).events = s.events := rfl
@[simp] theorem State.setCtx_controlTx (s : State) (n : CtxNum) (c : Context) : (s.setCtx n c).controlTx = s.controlTx := rfl
@[simp] theorem State.setCtx_headTx (s : State) (n : CtxNum) (c : Context) : (s.setCtx n c).headTx = s.headTx := rfl
@[simp] theorem State.setCtx_controlRx (s : State) (n : CtxNum) (c : Context) : (s.setCtx n c).controlRx = s.controlRx := rfl
@[simp] theorem State.setCtx_headRx (s : State) (n : CtxNum) (c : Context) : (s.setCtx n c).headRx = s.headRx := rfl
@[simp] theorem State.setCtx_controlLine (s : State) (n : CtxNum) (c : Context) : (s.setCtx n c).controlLine = s.controlLine := rfl
@[simp] theorem State.setCtx_headLines (s : State) (n : CtxNum) (c : Context) : (s.setCtx n c).headLines = s.headLines := rfl
@[simp] theorem State.setCtx_counted (s : State) (n : CtxNum) (c : Context) : (s.setCtx n c).counted = s.counted := rfl
@[simp] theorem State.setCtx_openValues (s : State) (n : CtxNum) (c : Context) : (s.setCtx n c).openValues = s.openValues := rfl
@[simp] theorem State.setCtx_chan (s : State) (n : CtxNum) (c : Context) (m : ChanNum) :
    (s.setCtx n c).chan m = s.chan m := rfl
@[simp] theorem State.setCtx_wait (s : State) (n : CtxNum) (c : Context) (m : CtxNum) :
    (s.setCtx n c).wait m = s.wait m := rfl
@[simp] theorem State.setCtx_headRec (s : State) (n : CtxNum) (c : Context) (m : HeadNum) :
    (s.setCtx n c).headRec m = s.headRec m := rfl
@[simp] theorem State.setCtx_inService (s : State) (n : CtxNum) (c : Context) (m : HeadNum) :
    (s.setCtx n c).inService m = s.inService m := rfl
@[simp] theorem State.setCtx_plan (s : State) (n : CtxNum) (c : Context) (m : HeadNum) :
    (s.setCtx n c).plan m = s.plan m := rfl
@[simp] theorem State.setCtx_freeCount (s : State) (n : CtxNum) (c : Context) (m : HeadNum) :
    (s.setCtx n c).freeCount m = s.freeCount m := rfl
@[simp] theorem State.setCtx_zone (s : State) (n : CtxNum) (c : Context) (m : Fin 8) :
    (s.setCtx n c).zone m = s.zone m := rfl
@[simp] theorem State.setCtx_vessel (s : State) (n : CtxNum) (c : Context) (m : Fin 4) :
    (s.setCtx n c).vessel m = s.vessel m := rfl
@[simp] theorem State.setCtx_eventRec (s : State) (n : CtxNum) (c : Context) (m : EventClass) :
    (s.setCtx n c).eventRec m = s.eventRec m := rfl

/-! ### setChan -/

@[simp] theorem State.setChan_channels (s : State) (ch : ChanNum) (c : Channel) : (s.setChan ch c).channels = s.channels.set ch c := rfl
@[simp] theorem State.setChan_pending (s : State) (ch : ChanNum) (c : Channel) : (s.setChan ch c).pending = s.pending := rfl
@[simp] theorem State.setChan_resetLow (s : State) (ch : ChanNum) (c : Channel) : (s.setChan ch c).resetLow = s.resetLow := rfl
@[simp] theorem State.setChan_clock (s : State) (ch : ChanNum) (c : Channel) : (s.setChan ch c).clock = s.clock := rfl
@[simp] theorem State.setChan_contexts (s : State) (ch : ChanNum) (c : Channel) : (s.setChan ch c).contexts = s.contexts := rfl
@[simp] theorem State.setChan_idMap (s : State) (ch : ChanNum) (c : Channel) : (s.setChan ch c).idMap = s.idMap := rfl
@[simp] theorem State.setChan_freeList (s : State) (ch : ChanNum) (c : Channel) : (s.setChan ch c).freeList = s.freeList := rfl
@[simp] theorem State.setChan_craneCount (s : State) (ch : ChanNum) (c : Channel) : (s.setChan ch c).craneCount = s.craneCount := rfl
@[simp] theorem State.setChan_waits (s : State) (ch : ChanNum) (c : Channel) : (s.setChan ch c).waits = s.waits := rfl
@[simp] theorem State.setChan_heads (s : State) (ch : ChanNum) (c : Channel) : (s.setChan ch c).heads = s.heads := rfl
@[simp] theorem State.setChan_plans (s : State) (ch : ChanNum) (c : Channel) : (s.setChan ch c).plans = s.plans := rfl
@[simp] theorem State.setChan_zones (s : State) (ch : ChanNum) (c : Channel) : (s.setChan ch c).zones = s.zones := rfl
@[simp] theorem State.setChan_vessels (s : State) (ch : ChanNum) (c : Channel) : (s.setChan ch c).vessels = s.vessels := rfl
@[simp] theorem State.setChan_dueList (s : State) (ch : ChanNum) (c : Channel) : (s.setChan ch c).dueList = s.dueList := rfl
@[simp] theorem State.setChan_params (s : State) (ch : ChanNum) (c : Channel) : (s.setChan ch c).params = s.params := rfl
@[simp] theorem State.setChan_events (s : State) (ch : ChanNum) (c : Channel) : (s.setChan ch c).events = s.events := rfl
@[simp] theorem State.setChan_controlTx (s : State) (ch : ChanNum) (c : Channel) : (s.setChan ch c).controlTx = s.controlTx := rfl
@[simp] theorem State.setChan_headTx (s : State) (ch : ChanNum) (c : Channel) : (s.setChan ch c).headTx = s.headTx := rfl
@[simp] theorem State.setChan_controlRx (s : State) (ch : ChanNum) (c : Channel) : (s.setChan ch c).controlRx = s.controlRx := rfl
@[simp] theorem State.setChan_headRx (s : State) (ch : ChanNum) (c : Channel) : (s.setChan ch c).headRx = s.headRx := rfl
@[simp] theorem State.setChan_controlLine (s : State) (ch : ChanNum) (c : Channel) : (s.setChan ch c).controlLine = s.controlLine := rfl
@[simp] theorem State.setChan_headLines (s : State) (ch : ChanNum) (c : Channel) : (s.setChan ch c).headLines = s.headLines := rfl
@[simp] theorem State.setChan_counted (s : State) (ch : ChanNum) (c : Channel) : (s.setChan ch c).counted = s.counted := rfl
@[simp] theorem State.setChan_openValues (s : State) (ch : ChanNum) (c : Channel) : (s.setChan ch c).openValues = s.openValues := rfl
@[simp] theorem State.setChan_ctx (s : State) (ch : ChanNum) (c : Channel) (m : CtxNum) :
    (s.setChan ch c).ctx m = s.ctx m := rfl
@[simp] theorem State.setChan_tag (s : State) (ch : ChanNum) (c : Channel) (m : CtxNum) :
    (s.setChan ch c).tag m = s.tag m := rfl
@[simp] theorem State.setChan_wait (s : State) (ch : ChanNum) (c : Channel) (m : CtxNum) :
    (s.setChan ch c).wait m = s.wait m := rfl
@[simp] theorem State.setChan_headRec (s : State) (ch : ChanNum) (c : Channel) (m : HeadNum) :
    (s.setChan ch c).headRec m = s.headRec m := rfl
@[simp] theorem State.setChan_inService (s : State) (ch : ChanNum) (c : Channel) (m : HeadNum) :
    (s.setChan ch c).inService m = s.inService m := rfl
@[simp] theorem State.setChan_plan (s : State) (ch : ChanNum) (c : Channel) (m : HeadNum) :
    (s.setChan ch c).plan m = s.plan m := rfl
@[simp] theorem State.setChan_freeCount (s : State) (ch : ChanNum) (c : Channel) (m : HeadNum) :
    (s.setChan ch c).freeCount m = s.freeCount m := rfl
@[simp] theorem State.setChan_zone (s : State) (ch : ChanNum) (c : Channel) (m : Fin 8) :
    (s.setChan ch c).zone m = s.zone m := rfl
@[simp] theorem State.setChan_vessel (s : State) (ch : ChanNum) (c : Channel) (m : Fin 4) :
    (s.setChan ch c).vessel m = s.vessel m := rfl
@[simp] theorem State.setChan_eventRec (s : State) (ch : ChanNum) (c : Channel) (m : EventClass) :
    (s.setChan ch c).eventRec m = s.eventRec m := rfl

/-! ### setWait -/

@[simp] theorem State.setWait_waits (s : State) (n : CtxNum) (l : List ChanNum) : (s.setWait n l).waits = s.waits.set n l := rfl
@[simp] theorem State.setWait_pending (s : State) (n : CtxNum) (l : List ChanNum) : (s.setWait n l).pending = s.pending := rfl
@[simp] theorem State.setWait_resetLow (s : State) (n : CtxNum) (l : List ChanNum) : (s.setWait n l).resetLow = s.resetLow := rfl
@[simp] theorem State.setWait_clock (s : State) (n : CtxNum) (l : List ChanNum) : (s.setWait n l).clock = s.clock := rfl
@[simp] theorem State.setWait_contexts (s : State) (n : CtxNum) (l : List ChanNum) : (s.setWait n l).contexts = s.contexts := rfl
@[simp] theorem State.setWait_idMap (s : State) (n : CtxNum) (l : List ChanNum) : (s.setWait n l).idMap = s.idMap := rfl
@[simp] theorem State.setWait_freeList (s : State) (n : CtxNum) (l : List ChanNum) : (s.setWait n l).freeList = s.freeList := rfl
@[simp] theorem State.setWait_craneCount (s : State) (n : CtxNum) (l : List ChanNum) : (s.setWait n l).craneCount = s.craneCount := rfl
@[simp] theorem State.setWait_channels (s : State) (n : CtxNum) (l : List ChanNum) : (s.setWait n l).channels = s.channels := rfl
@[simp] theorem State.setWait_heads (s : State) (n : CtxNum) (l : List ChanNum) : (s.setWait n l).heads = s.heads := rfl
@[simp] theorem State.setWait_plans (s : State) (n : CtxNum) (l : List ChanNum) : (s.setWait n l).plans = s.plans := rfl
@[simp] theorem State.setWait_zones (s : State) (n : CtxNum) (l : List ChanNum) : (s.setWait n l).zones = s.zones := rfl
@[simp] theorem State.setWait_vessels (s : State) (n : CtxNum) (l : List ChanNum) : (s.setWait n l).vessels = s.vessels := rfl
@[simp] theorem State.setWait_dueList (s : State) (n : CtxNum) (l : List ChanNum) : (s.setWait n l).dueList = s.dueList := rfl
@[simp] theorem State.setWait_params (s : State) (n : CtxNum) (l : List ChanNum) : (s.setWait n l).params = s.params := rfl
@[simp] theorem State.setWait_events (s : State) (n : CtxNum) (l : List ChanNum) : (s.setWait n l).events = s.events := rfl
@[simp] theorem State.setWait_controlTx (s : State) (n : CtxNum) (l : List ChanNum) : (s.setWait n l).controlTx = s.controlTx := rfl
@[simp] theorem State.setWait_headTx (s : State) (n : CtxNum) (l : List ChanNum) : (s.setWait n l).headTx = s.headTx := rfl
@[simp] theorem State.setWait_controlRx (s : State) (n : CtxNum) (l : List ChanNum) : (s.setWait n l).controlRx = s.controlRx := rfl
@[simp] theorem State.setWait_headRx (s : State) (n : CtxNum) (l : List ChanNum) : (s.setWait n l).headRx = s.headRx := rfl
@[simp] theorem State.setWait_controlLine (s : State) (n : CtxNum) (l : List ChanNum) : (s.setWait n l).controlLine = s.controlLine := rfl
@[simp] theorem State.setWait_headLines (s : State) (n : CtxNum) (l : List ChanNum) : (s.setWait n l).headLines = s.headLines := rfl
@[simp] theorem State.setWait_counted (s : State) (n : CtxNum) (l : List ChanNum) : (s.setWait n l).counted = s.counted := rfl
@[simp] theorem State.setWait_openValues (s : State) (n : CtxNum) (l : List ChanNum) : (s.setWait n l).openValues = s.openValues := rfl
@[simp] theorem State.setWait_ctx (s : State) (n : CtxNum) (l : List ChanNum) (m : CtxNum) :
    (s.setWait n l).ctx m = s.ctx m := rfl
@[simp] theorem State.setWait_tag (s : State) (n : CtxNum) (l : List ChanNum) (m : CtxNum) :
    (s.setWait n l).tag m = s.tag m := rfl
@[simp] theorem State.setWait_chan (s : State) (n : CtxNum) (l : List ChanNum) (m : ChanNum) :
    (s.setWait n l).chan m = s.chan m := rfl
@[simp] theorem State.setWait_headRec (s : State) (n : CtxNum) (l : List ChanNum) (m : HeadNum) :
    (s.setWait n l).headRec m = s.headRec m := rfl
@[simp] theorem State.setWait_inService (s : State) (n : CtxNum) (l : List ChanNum) (m : HeadNum) :
    (s.setWait n l).inService m = s.inService m := rfl
@[simp] theorem State.setWait_plan (s : State) (n : CtxNum) (l : List ChanNum) (m : HeadNum) :
    (s.setWait n l).plan m = s.plan m := rfl
@[simp] theorem State.setWait_freeCount (s : State) (n : CtxNum) (l : List ChanNum) (m : HeadNum) :
    (s.setWait n l).freeCount m = s.freeCount m := rfl
@[simp] theorem State.setWait_zone (s : State) (n : CtxNum) (l : List ChanNum) (m : Fin 8) :
    (s.setWait n l).zone m = s.zone m := rfl
@[simp] theorem State.setWait_vessel (s : State) (n : CtxNum) (l : List ChanNum) (m : Fin 4) :
    (s.setWait n l).vessel m = s.vessel m := rfl
@[simp] theorem State.setWait_eventRec (s : State) (n : CtxNum) (l : List ChanNum) (m : EventClass) :
    (s.setWait n l).eventRec m = s.eventRec m := rfl

/-! ### setHead -/

@[simp] theorem State.setHead_heads (s : State) (h : HeadNum) (r : Head) : (s.setHead h r).heads = s.heads.set h r := rfl
@[simp] theorem State.setHead_pending (s : State) (h : HeadNum) (r : Head) : (s.setHead h r).pending = s.pending := rfl
@[simp] theorem State.setHead_resetLow (s : State) (h : HeadNum) (r : Head) : (s.setHead h r).resetLow = s.resetLow := rfl
@[simp] theorem State.setHead_clock (s : State) (h : HeadNum) (r : Head) : (s.setHead h r).clock = s.clock := rfl
@[simp] theorem State.setHead_contexts (s : State) (h : HeadNum) (r : Head) : (s.setHead h r).contexts = s.contexts := rfl
@[simp] theorem State.setHead_idMap (s : State) (h : HeadNum) (r : Head) : (s.setHead h r).idMap = s.idMap := rfl
@[simp] theorem State.setHead_freeList (s : State) (h : HeadNum) (r : Head) : (s.setHead h r).freeList = s.freeList := rfl
@[simp] theorem State.setHead_craneCount (s : State) (h : HeadNum) (r : Head) : (s.setHead h r).craneCount = s.craneCount := rfl
@[simp] theorem State.setHead_channels (s : State) (h : HeadNum) (r : Head) : (s.setHead h r).channels = s.channels := rfl
@[simp] theorem State.setHead_waits (s : State) (h : HeadNum) (r : Head) : (s.setHead h r).waits = s.waits := rfl
@[simp] theorem State.setHead_plans (s : State) (h : HeadNum) (r : Head) : (s.setHead h r).plans = s.plans := rfl
@[simp] theorem State.setHead_zones (s : State) (h : HeadNum) (r : Head) : (s.setHead h r).zones = s.zones := rfl
@[simp] theorem State.setHead_vessels (s : State) (h : HeadNum) (r : Head) : (s.setHead h r).vessels = s.vessels := rfl
@[simp] theorem State.setHead_dueList (s : State) (h : HeadNum) (r : Head) : (s.setHead h r).dueList = s.dueList := rfl
@[simp] theorem State.setHead_params (s : State) (h : HeadNum) (r : Head) : (s.setHead h r).params = s.params := rfl
@[simp] theorem State.setHead_events (s : State) (h : HeadNum) (r : Head) : (s.setHead h r).events = s.events := rfl
@[simp] theorem State.setHead_controlTx (s : State) (h : HeadNum) (r : Head) : (s.setHead h r).controlTx = s.controlTx := rfl
@[simp] theorem State.setHead_headTx (s : State) (h : HeadNum) (r : Head) : (s.setHead h r).headTx = s.headTx := rfl
@[simp] theorem State.setHead_controlRx (s : State) (h : HeadNum) (r : Head) : (s.setHead h r).controlRx = s.controlRx := rfl
@[simp] theorem State.setHead_headRx (s : State) (h : HeadNum) (r : Head) : (s.setHead h r).headRx = s.headRx := rfl
@[simp] theorem State.setHead_controlLine (s : State) (h : HeadNum) (r : Head) : (s.setHead h r).controlLine = s.controlLine := rfl
@[simp] theorem State.setHead_headLines (s : State) (h : HeadNum) (r : Head) : (s.setHead h r).headLines = s.headLines := rfl
@[simp] theorem State.setHead_counted (s : State) (h : HeadNum) (r : Head) : (s.setHead h r).counted = s.counted := rfl
@[simp] theorem State.setHead_openValues (s : State) (h : HeadNum) (r : Head) : (s.setHead h r).openValues = s.openValues := rfl
@[simp] theorem State.setHead_ctx (s : State) (h : HeadNum) (r : Head) (m : CtxNum) :
    (s.setHead h r).ctx m = s.ctx m := rfl
@[simp] theorem State.setHead_tag (s : State) (h : HeadNum) (r : Head) (m : CtxNum) :
    (s.setHead h r).tag m = s.tag m := rfl
@[simp] theorem State.setHead_chan (s : State) (h : HeadNum) (r : Head) (m : ChanNum) :
    (s.setHead h r).chan m = s.chan m := rfl
@[simp] theorem State.setHead_wait (s : State) (h : HeadNum) (r : Head) (m : CtxNum) :
    (s.setHead h r).wait m = s.wait m := rfl
@[simp] theorem State.setHead_plan (s : State) (h : HeadNum) (r : Head) (m : HeadNum) :
    (s.setHead h r).plan m = s.plan m := rfl
@[simp] theorem State.setHead_freeCount (s : State) (h : HeadNum) (r : Head) (m : HeadNum) :
    (s.setHead h r).freeCount m = s.freeCount m := rfl
@[simp] theorem State.setHead_zone (s : State) (h : HeadNum) (r : Head) (m : Fin 8) :
    (s.setHead h r).zone m = s.zone m := rfl
@[simp] theorem State.setHead_vessel (s : State) (h : HeadNum) (r : Head) (m : Fin 4) :
    (s.setHead h r).vessel m = s.vessel m := rfl
@[simp] theorem State.setHead_eventRec (s : State) (h : HeadNum) (r : Head) (m : EventClass) :
    (s.setHead h r).eventRec m = s.eventRec m := rfl

/-! ### setPlan -/

@[simp] theorem State.setPlan_plans (s : State) (h : HeadNum) (p : Plan) : (s.setPlan h p).plans = s.plans.set h p := rfl
@[simp] theorem State.setPlan_pending (s : State) (h : HeadNum) (p : Plan) : (s.setPlan h p).pending = s.pending := rfl
@[simp] theorem State.setPlan_resetLow (s : State) (h : HeadNum) (p : Plan) : (s.setPlan h p).resetLow = s.resetLow := rfl
@[simp] theorem State.setPlan_clock (s : State) (h : HeadNum) (p : Plan) : (s.setPlan h p).clock = s.clock := rfl
@[simp] theorem State.setPlan_contexts (s : State) (h : HeadNum) (p : Plan) : (s.setPlan h p).contexts = s.contexts := rfl
@[simp] theorem State.setPlan_idMap (s : State) (h : HeadNum) (p : Plan) : (s.setPlan h p).idMap = s.idMap := rfl
@[simp] theorem State.setPlan_freeList (s : State) (h : HeadNum) (p : Plan) : (s.setPlan h p).freeList = s.freeList := rfl
@[simp] theorem State.setPlan_craneCount (s : State) (h : HeadNum) (p : Plan) : (s.setPlan h p).craneCount = s.craneCount := rfl
@[simp] theorem State.setPlan_channels (s : State) (h : HeadNum) (p : Plan) : (s.setPlan h p).channels = s.channels := rfl
@[simp] theorem State.setPlan_waits (s : State) (h : HeadNum) (p : Plan) : (s.setPlan h p).waits = s.waits := rfl
@[simp] theorem State.setPlan_heads (s : State) (h : HeadNum) (p : Plan) : (s.setPlan h p).heads = s.heads := rfl
@[simp] theorem State.setPlan_zones (s : State) (h : HeadNum) (p : Plan) : (s.setPlan h p).zones = s.zones := rfl
@[simp] theorem State.setPlan_vessels (s : State) (h : HeadNum) (p : Plan) : (s.setPlan h p).vessels = s.vessels := rfl
@[simp] theorem State.setPlan_dueList (s : State) (h : HeadNum) (p : Plan) : (s.setPlan h p).dueList = s.dueList := rfl
@[simp] theorem State.setPlan_params (s : State) (h : HeadNum) (p : Plan) : (s.setPlan h p).params = s.params := rfl
@[simp] theorem State.setPlan_events (s : State) (h : HeadNum) (p : Plan) : (s.setPlan h p).events = s.events := rfl
@[simp] theorem State.setPlan_controlTx (s : State) (h : HeadNum) (p : Plan) : (s.setPlan h p).controlTx = s.controlTx := rfl
@[simp] theorem State.setPlan_headTx (s : State) (h : HeadNum) (p : Plan) : (s.setPlan h p).headTx = s.headTx := rfl
@[simp] theorem State.setPlan_controlRx (s : State) (h : HeadNum) (p : Plan) : (s.setPlan h p).controlRx = s.controlRx := rfl
@[simp] theorem State.setPlan_headRx (s : State) (h : HeadNum) (p : Plan) : (s.setPlan h p).headRx = s.headRx := rfl
@[simp] theorem State.setPlan_controlLine (s : State) (h : HeadNum) (p : Plan) : (s.setPlan h p).controlLine = s.controlLine := rfl
@[simp] theorem State.setPlan_headLines (s : State) (h : HeadNum) (p : Plan) : (s.setPlan h p).headLines = s.headLines := rfl
@[simp] theorem State.setPlan_counted (s : State) (h : HeadNum) (p : Plan) : (s.setPlan h p).counted = s.counted := rfl
@[simp] theorem State.setPlan_openValues (s : State) (h : HeadNum) (p : Plan) : (s.setPlan h p).openValues = s.openValues := rfl
@[simp] theorem State.setPlan_ctx (s : State) (h : HeadNum) (p : Plan) (m : CtxNum) :
    (s.setPlan h p).ctx m = s.ctx m := rfl
@[simp] theorem State.setPlan_tag (s : State) (h : HeadNum) (p : Plan) (m : CtxNum) :
    (s.setPlan h p).tag m = s.tag m := rfl
@[simp] theorem State.setPlan_chan (s : State) (h : HeadNum) (p : Plan) (m : ChanNum) :
    (s.setPlan h p).chan m = s.chan m := rfl
@[simp] theorem State.setPlan_wait (s : State) (h : HeadNum) (p : Plan) (m : CtxNum) :
    (s.setPlan h p).wait m = s.wait m := rfl
@[simp] theorem State.setPlan_headRec (s : State) (h : HeadNum) (p : Plan) (m : HeadNum) :
    (s.setPlan h p).headRec m = s.headRec m := rfl
@[simp] theorem State.setPlan_inService (s : State) (h : HeadNum) (p : Plan) (m : HeadNum) :
    (s.setPlan h p).inService m = s.inService m := rfl
@[simp] theorem State.setPlan_zone (s : State) (h : HeadNum) (p : Plan) (m : Fin 8) :
    (s.setPlan h p).zone m = s.zone m := rfl
@[simp] theorem State.setPlan_vessel (s : State) (h : HeadNum) (p : Plan) (m : Fin 4) :
    (s.setPlan h p).vessel m = s.vessel m := rfl
@[simp] theorem State.setPlan_eventRec (s : State) (h : HeadNum) (p : Plan) (m : EventClass) :
    (s.setPlan h p).eventRec m = s.eventRec m := rfl

/-! ### setZone -/

@[simp] theorem State.setZone_zones (s : State) (w : Fin 8) (z : ZoneWindow) : (s.setZone w z).zones = s.zones.set w z := rfl
@[simp] theorem State.setZone_pending (s : State) (w : Fin 8) (z : ZoneWindow) : (s.setZone w z).pending = s.pending := rfl
@[simp] theorem State.setZone_resetLow (s : State) (w : Fin 8) (z : ZoneWindow) : (s.setZone w z).resetLow = s.resetLow := rfl
@[simp] theorem State.setZone_clock (s : State) (w : Fin 8) (z : ZoneWindow) : (s.setZone w z).clock = s.clock := rfl
@[simp] theorem State.setZone_contexts (s : State) (w : Fin 8) (z : ZoneWindow) : (s.setZone w z).contexts = s.contexts := rfl
@[simp] theorem State.setZone_idMap (s : State) (w : Fin 8) (z : ZoneWindow) : (s.setZone w z).idMap = s.idMap := rfl
@[simp] theorem State.setZone_freeList (s : State) (w : Fin 8) (z : ZoneWindow) : (s.setZone w z).freeList = s.freeList := rfl
@[simp] theorem State.setZone_craneCount (s : State) (w : Fin 8) (z : ZoneWindow) : (s.setZone w z).craneCount = s.craneCount := rfl
@[simp] theorem State.setZone_channels (s : State) (w : Fin 8) (z : ZoneWindow) : (s.setZone w z).channels = s.channels := rfl
@[simp] theorem State.setZone_waits (s : State) (w : Fin 8) (z : ZoneWindow) : (s.setZone w z).waits = s.waits := rfl
@[simp] theorem State.setZone_heads (s : State) (w : Fin 8) (z : ZoneWindow) : (s.setZone w z).heads = s.heads := rfl
@[simp] theorem State.setZone_plans (s : State) (w : Fin 8) (z : ZoneWindow) : (s.setZone w z).plans = s.plans := rfl
@[simp] theorem State.setZone_vessels (s : State) (w : Fin 8) (z : ZoneWindow) : (s.setZone w z).vessels = s.vessels := rfl
@[simp] theorem State.setZone_dueList (s : State) (w : Fin 8) (z : ZoneWindow) : (s.setZone w z).dueList = s.dueList := rfl
@[simp] theorem State.setZone_params (s : State) (w : Fin 8) (z : ZoneWindow) : (s.setZone w z).params = s.params := rfl
@[simp] theorem State.setZone_events (s : State) (w : Fin 8) (z : ZoneWindow) : (s.setZone w z).events = s.events := rfl
@[simp] theorem State.setZone_controlTx (s : State) (w : Fin 8) (z : ZoneWindow) : (s.setZone w z).controlTx = s.controlTx := rfl
@[simp] theorem State.setZone_headTx (s : State) (w : Fin 8) (z : ZoneWindow) : (s.setZone w z).headTx = s.headTx := rfl
@[simp] theorem State.setZone_controlRx (s : State) (w : Fin 8) (z : ZoneWindow) : (s.setZone w z).controlRx = s.controlRx := rfl
@[simp] theorem State.setZone_headRx (s : State) (w : Fin 8) (z : ZoneWindow) : (s.setZone w z).headRx = s.headRx := rfl
@[simp] theorem State.setZone_controlLine (s : State) (w : Fin 8) (z : ZoneWindow) : (s.setZone w z).controlLine = s.controlLine := rfl
@[simp] theorem State.setZone_headLines (s : State) (w : Fin 8) (z : ZoneWindow) : (s.setZone w z).headLines = s.headLines := rfl
@[simp] theorem State.setZone_counted (s : State) (w : Fin 8) (z : ZoneWindow) : (s.setZone w z).counted = s.counted := rfl
@[simp] theorem State.setZone_openValues (s : State) (w : Fin 8) (z : ZoneWindow) : (s.setZone w z).openValues = s.openValues := rfl
@[simp] theorem State.setZone_ctx (s : State) (w : Fin 8) (z : ZoneWindow) (m : CtxNum) :
    (s.setZone w z).ctx m = s.ctx m := rfl
@[simp] theorem State.setZone_tag (s : State) (w : Fin 8) (z : ZoneWindow) (m : CtxNum) :
    (s.setZone w z).tag m = s.tag m := rfl
@[simp] theorem State.setZone_chan (s : State) (w : Fin 8) (z : ZoneWindow) (m : ChanNum) :
    (s.setZone w z).chan m = s.chan m := rfl
@[simp] theorem State.setZone_wait (s : State) (w : Fin 8) (z : ZoneWindow) (m : CtxNum) :
    (s.setZone w z).wait m = s.wait m := rfl
@[simp] theorem State.setZone_headRec (s : State) (w : Fin 8) (z : ZoneWindow) (m : HeadNum) :
    (s.setZone w z).headRec m = s.headRec m := rfl
@[simp] theorem State.setZone_inService (s : State) (w : Fin 8) (z : ZoneWindow) (m : HeadNum) :
    (s.setZone w z).inService m = s.inService m := rfl
@[simp] theorem State.setZone_plan (s : State) (w : Fin 8) (z : ZoneWindow) (m : HeadNum) :
    (s.setZone w z).plan m = s.plan m := rfl
@[simp] theorem State.setZone_freeCount (s : State) (w : Fin 8) (z : ZoneWindow) (m : HeadNum) :
    (s.setZone w z).freeCount m = s.freeCount m := rfl
@[simp] theorem State.setZone_vessel (s : State) (w : Fin 8) (z : ZoneWindow) (m : Fin 4) :
    (s.setZone w z).vessel m = s.vessel m := rfl
@[simp] theorem State.setZone_eventRec (s : State) (w : Fin 8) (z : ZoneWindow) (m : EventClass) :
    (s.setZone w z).eventRec m = s.eventRec m := rfl

/-! ### setVessel -/

@[simp] theorem State.setVessel_vessels (s : State) (w : Fin 4) (v : VesselWindow) : (s.setVessel w v).vessels = s.vessels.set w v := rfl
@[simp] theorem State.setVessel_pending (s : State) (w : Fin 4) (v : VesselWindow) : (s.setVessel w v).pending = s.pending := rfl
@[simp] theorem State.setVessel_resetLow (s : State) (w : Fin 4) (v : VesselWindow) : (s.setVessel w v).resetLow = s.resetLow := rfl
@[simp] theorem State.setVessel_clock (s : State) (w : Fin 4) (v : VesselWindow) : (s.setVessel w v).clock = s.clock := rfl
@[simp] theorem State.setVessel_contexts (s : State) (w : Fin 4) (v : VesselWindow) : (s.setVessel w v).contexts = s.contexts := rfl
@[simp] theorem State.setVessel_idMap (s : State) (w : Fin 4) (v : VesselWindow) : (s.setVessel w v).idMap = s.idMap := rfl
@[simp] theorem State.setVessel_freeList (s : State) (w : Fin 4) (v : VesselWindow) : (s.setVessel w v).freeList = s.freeList := rfl
@[simp] theorem State.setVessel_craneCount (s : State) (w : Fin 4) (v : VesselWindow) : (s.setVessel w v).craneCount = s.craneCount := rfl
@[simp] theorem State.setVessel_channels (s : State) (w : Fin 4) (v : VesselWindow) : (s.setVessel w v).channels = s.channels := rfl
@[simp] theorem State.setVessel_waits (s : State) (w : Fin 4) (v : VesselWindow) : (s.setVessel w v).waits = s.waits := rfl
@[simp] theorem State.setVessel_heads (s : State) (w : Fin 4) (v : VesselWindow) : (s.setVessel w v).heads = s.heads := rfl
@[simp] theorem State.setVessel_plans (s : State) (w : Fin 4) (v : VesselWindow) : (s.setVessel w v).plans = s.plans := rfl
@[simp] theorem State.setVessel_zones (s : State) (w : Fin 4) (v : VesselWindow) : (s.setVessel w v).zones = s.zones := rfl
@[simp] theorem State.setVessel_dueList (s : State) (w : Fin 4) (v : VesselWindow) : (s.setVessel w v).dueList = s.dueList := rfl
@[simp] theorem State.setVessel_params (s : State) (w : Fin 4) (v : VesselWindow) : (s.setVessel w v).params = s.params := rfl
@[simp] theorem State.setVessel_events (s : State) (w : Fin 4) (v : VesselWindow) : (s.setVessel w v).events = s.events := rfl
@[simp] theorem State.setVessel_controlTx (s : State) (w : Fin 4) (v : VesselWindow) : (s.setVessel w v).controlTx = s.controlTx := rfl
@[simp] theorem State.setVessel_headTx (s : State) (w : Fin 4) (v : VesselWindow) : (s.setVessel w v).headTx = s.headTx := rfl
@[simp] theorem State.setVessel_controlRx (s : State) (w : Fin 4) (v : VesselWindow) : (s.setVessel w v).controlRx = s.controlRx := rfl
@[simp] theorem State.setVessel_headRx (s : State) (w : Fin 4) (v : VesselWindow) : (s.setVessel w v).headRx = s.headRx := rfl
@[simp] theorem State.setVessel_controlLine (s : State) (w : Fin 4) (v : VesselWindow) : (s.setVessel w v).controlLine = s.controlLine := rfl
@[simp] theorem State.setVessel_headLines (s : State) (w : Fin 4) (v : VesselWindow) : (s.setVessel w v).headLines = s.headLines := rfl
@[simp] theorem State.setVessel_counted (s : State) (w : Fin 4) (v : VesselWindow) : (s.setVessel w v).counted = s.counted := rfl
@[simp] theorem State.setVessel_openValues (s : State) (w : Fin 4) (v : VesselWindow) : (s.setVessel w v).openValues = s.openValues := rfl
@[simp] theorem State.setVessel_ctx (s : State) (w : Fin 4) (v : VesselWindow) (m : CtxNum) :
    (s.setVessel w v).ctx m = s.ctx m := rfl
@[simp] theorem State.setVessel_tag (s : State) (w : Fin 4) (v : VesselWindow) (m : CtxNum) :
    (s.setVessel w v).tag m = s.tag m := rfl
@[simp] theorem State.setVessel_chan (s : State) (w : Fin 4) (v : VesselWindow) (m : ChanNum) :
    (s.setVessel w v).chan m = s.chan m := rfl
@[simp] theorem State.setVessel_wait (s : State) (w : Fin 4) (v : VesselWindow) (m : CtxNum) :
    (s.setVessel w v).wait m = s.wait m := rfl
@[simp] theorem State.setVessel_headRec (s : State) (w : Fin 4) (v : VesselWindow) (m : HeadNum) :
    (s.setVessel w v).headRec m = s.headRec m := rfl
@[simp] theorem State.setVessel_inService (s : State) (w : Fin 4) (v : VesselWindow) (m : HeadNum) :
    (s.setVessel w v).inService m = s.inService m := rfl
@[simp] theorem State.setVessel_plan (s : State) (w : Fin 4) (v : VesselWindow) (m : HeadNum) :
    (s.setVessel w v).plan m = s.plan m := rfl
@[simp] theorem State.setVessel_freeCount (s : State) (w : Fin 4) (v : VesselWindow) (m : HeadNum) :
    (s.setVessel w v).freeCount m = s.freeCount m := rfl
@[simp] theorem State.setVessel_zone (s : State) (w : Fin 4) (v : VesselWindow) (m : Fin 8) :
    (s.setVessel w v).zone m = s.zone m := rfl
@[simp] theorem State.setVessel_eventRec (s : State) (w : Fin 4) (v : VesselWindow) (m : EventClass) :
    (s.setVessel w v).eventRec m = s.eventRec m := rfl

/-! ### setEvent -/

@[simp] theorem State.setEvent_events (s : State) (c : EventClass) (r : EventRec) : (s.setEvent c r).events = s.events.set c.num r := rfl
@[simp] theorem State.setEvent_pending (s : State) (c : EventClass) (r : EventRec) : (s.setEvent c r).pending = s.pending := rfl
@[simp] theorem State.setEvent_resetLow (s : State) (c : EventClass) (r : EventRec) : (s.setEvent c r).resetLow = s.resetLow := rfl
@[simp] theorem State.setEvent_clock (s : State) (c : EventClass) (r : EventRec) : (s.setEvent c r).clock = s.clock := rfl
@[simp] theorem State.setEvent_contexts (s : State) (c : EventClass) (r : EventRec) : (s.setEvent c r).contexts = s.contexts := rfl
@[simp] theorem State.setEvent_idMap (s : State) (c : EventClass) (r : EventRec) : (s.setEvent c r).idMap = s.idMap := rfl
@[simp] theorem State.setEvent_freeList (s : State) (c : EventClass) (r : EventRec) : (s.setEvent c r).freeList = s.freeList := rfl
@[simp] theorem State.setEvent_craneCount (s : State) (c : EventClass) (r : EventRec) : (s.setEvent c r).craneCount = s.craneCount := rfl
@[simp] theorem State.setEvent_channels (s : State) (c : EventClass) (r : EventRec) : (s.setEvent c r).channels = s.channels := rfl
@[simp] theorem State.setEvent_waits (s : State) (c : EventClass) (r : EventRec) : (s.setEvent c r).waits = s.waits := rfl
@[simp] theorem State.setEvent_heads (s : State) (c : EventClass) (r : EventRec) : (s.setEvent c r).heads = s.heads := rfl
@[simp] theorem State.setEvent_plans (s : State) (c : EventClass) (r : EventRec) : (s.setEvent c r).plans = s.plans := rfl
@[simp] theorem State.setEvent_zones (s : State) (c : EventClass) (r : EventRec) : (s.setEvent c r).zones = s.zones := rfl
@[simp] theorem State.setEvent_vessels (s : State) (c : EventClass) (r : EventRec) : (s.setEvent c r).vessels = s.vessels := rfl
@[simp] theorem State.setEvent_dueList (s : State) (c : EventClass) (r : EventRec) : (s.setEvent c r).dueList = s.dueList := rfl
@[simp] theorem State.setEvent_params (s : State) (c : EventClass) (r : EventRec) : (s.setEvent c r).params = s.params := rfl
@[simp] theorem State.setEvent_controlTx (s : State) (c : EventClass) (r : EventRec) : (s.setEvent c r).controlTx = s.controlTx := rfl
@[simp] theorem State.setEvent_headTx (s : State) (c : EventClass) (r : EventRec) : (s.setEvent c r).headTx = s.headTx := rfl
@[simp] theorem State.setEvent_controlRx (s : State) (c : EventClass) (r : EventRec) : (s.setEvent c r).controlRx = s.controlRx := rfl
@[simp] theorem State.setEvent_headRx (s : State) (c : EventClass) (r : EventRec) : (s.setEvent c r).headRx = s.headRx := rfl
@[simp] theorem State.setEvent_controlLine (s : State) (c : EventClass) (r : EventRec) : (s.setEvent c r).controlLine = s.controlLine := rfl
@[simp] theorem State.setEvent_headLines (s : State) (c : EventClass) (r : EventRec) : (s.setEvent c r).headLines = s.headLines := rfl
@[simp] theorem State.setEvent_counted (s : State) (c : EventClass) (r : EventRec) : (s.setEvent c r).counted = s.counted := rfl
@[simp] theorem State.setEvent_openValues (s : State) (c : EventClass) (r : EventRec) : (s.setEvent c r).openValues = s.openValues := rfl
@[simp] theorem State.setEvent_ctx (s : State) (c : EventClass) (r : EventRec) (m : CtxNum) :
    (s.setEvent c r).ctx m = s.ctx m := rfl
@[simp] theorem State.setEvent_tag (s : State) (c : EventClass) (r : EventRec) (m : CtxNum) :
    (s.setEvent c r).tag m = s.tag m := rfl
@[simp] theorem State.setEvent_chan (s : State) (c : EventClass) (r : EventRec) (m : ChanNum) :
    (s.setEvent c r).chan m = s.chan m := rfl
@[simp] theorem State.setEvent_wait (s : State) (c : EventClass) (r : EventRec) (m : CtxNum) :
    (s.setEvent c r).wait m = s.wait m := rfl
@[simp] theorem State.setEvent_headRec (s : State) (c : EventClass) (r : EventRec) (m : HeadNum) :
    (s.setEvent c r).headRec m = s.headRec m := rfl
@[simp] theorem State.setEvent_inService (s : State) (c : EventClass) (r : EventRec) (m : HeadNum) :
    (s.setEvent c r).inService m = s.inService m := rfl
@[simp] theorem State.setEvent_plan (s : State) (c : EventClass) (r : EventRec) (m : HeadNum) :
    (s.setEvent c r).plan m = s.plan m := rfl
@[simp] theorem State.setEvent_freeCount (s : State) (c : EventClass) (r : EventRec) (m : HeadNum) :
    (s.setEvent c r).freeCount m = s.freeCount m := rfl
@[simp] theorem State.setEvent_zone (s : State) (c : EventClass) (r : EventRec) (m : Fin 8) :
    (s.setEvent c r).zone m = s.zone m := rfl
@[simp] theorem State.setEvent_vessel (s : State) (c : EventClass) (r : EventRec) (m : Fin 4) :
    (s.setEvent c r).vessel m = s.vessel m := rfl

/-! ### answer -/

@[simp] theorem State.answer_controlTx (s : State) (ch : ChanNum) (echo : Byte) (r : Reply) : (s.answer ch echo r).controlTx = s.controlTx ++ [⟨ch, echo, r⟩] := rfl
@[simp] theorem State.answer_pending (s : State) (ch : ChanNum) (echo : Byte) (r : Reply) : (s.answer ch echo r).pending = s.pending := rfl
@[simp] theorem State.answer_resetLow (s : State) (ch : ChanNum) (echo : Byte) (r : Reply) : (s.answer ch echo r).resetLow = s.resetLow := rfl
@[simp] theorem State.answer_clock (s : State) (ch : ChanNum) (echo : Byte) (r : Reply) : (s.answer ch echo r).clock = s.clock := rfl
@[simp] theorem State.answer_contexts (s : State) (ch : ChanNum) (echo : Byte) (r : Reply) : (s.answer ch echo r).contexts = s.contexts := rfl
@[simp] theorem State.answer_idMap (s : State) (ch : ChanNum) (echo : Byte) (r : Reply) : (s.answer ch echo r).idMap = s.idMap := rfl
@[simp] theorem State.answer_freeList (s : State) (ch : ChanNum) (echo : Byte) (r : Reply) : (s.answer ch echo r).freeList = s.freeList := rfl
@[simp] theorem State.answer_craneCount (s : State) (ch : ChanNum) (echo : Byte) (r : Reply) : (s.answer ch echo r).craneCount = s.craneCount := rfl
@[simp] theorem State.answer_channels (s : State) (ch : ChanNum) (echo : Byte) (r : Reply) : (s.answer ch echo r).channels = s.channels := rfl
@[simp] theorem State.answer_waits (s : State) (ch : ChanNum) (echo : Byte) (r : Reply) : (s.answer ch echo r).waits = s.waits := rfl
@[simp] theorem State.answer_heads (s : State) (ch : ChanNum) (echo : Byte) (r : Reply) : (s.answer ch echo r).heads = s.heads := rfl
@[simp] theorem State.answer_plans (s : State) (ch : ChanNum) (echo : Byte) (r : Reply) : (s.answer ch echo r).plans = s.plans := rfl
@[simp] theorem State.answer_zones (s : State) (ch : ChanNum) (echo : Byte) (r : Reply) : (s.answer ch echo r).zones = s.zones := rfl
@[simp] theorem State.answer_vessels (s : State) (ch : ChanNum) (echo : Byte) (r : Reply) : (s.answer ch echo r).vessels = s.vessels := rfl
@[simp] theorem State.answer_dueList (s : State) (ch : ChanNum) (echo : Byte) (r : Reply) : (s.answer ch echo r).dueList = s.dueList := rfl
@[simp] theorem State.answer_params (s : State) (ch : ChanNum) (echo : Byte) (r : Reply) : (s.answer ch echo r).params = s.params := rfl
@[simp] theorem State.answer_events (s : State) (ch : ChanNum) (echo : Byte) (r : Reply) : (s.answer ch echo r).events = s.events := rfl
@[simp] theorem State.answer_headTx (s : State) (ch : ChanNum) (echo : Byte) (r : Reply) : (s.answer ch echo r).headTx = s.headTx := rfl
@[simp] theorem State.answer_controlRx (s : State) (ch : ChanNum) (echo : Byte) (r : Reply) : (s.answer ch echo r).controlRx = s.controlRx := rfl
@[simp] theorem State.answer_headRx (s : State) (ch : ChanNum) (echo : Byte) (r : Reply) : (s.answer ch echo r).headRx = s.headRx := rfl
@[simp] theorem State.answer_controlLine (s : State) (ch : ChanNum) (echo : Byte) (r : Reply) : (s.answer ch echo r).controlLine = s.controlLine := rfl
@[simp] theorem State.answer_headLines (s : State) (ch : ChanNum) (echo : Byte) (r : Reply) : (s.answer ch echo r).headLines = s.headLines := rfl
@[simp] theorem State.answer_counted (s : State) (ch : ChanNum) (echo : Byte) (r : Reply) : (s.answer ch echo r).counted = s.counted := rfl
@[simp] theorem State.answer_openValues (s : State) (ch : ChanNum) (echo : Byte) (r : Reply) : (s.answer ch echo r).openValues = s.openValues := rfl
@[simp] theorem State.answer_ctx (s : State) (ch : ChanNum) (echo : Byte) (r : Reply) (m : CtxNum) :
    (s.answer ch echo r).ctx m = s.ctx m := rfl
@[simp] theorem State.answer_tag (s : State) (ch : ChanNum) (echo : Byte) (r : Reply) (m : CtxNum) :
    (s.answer ch echo r).tag m = s.tag m := rfl
@[simp] theorem State.answer_chan (s : State) (ch : ChanNum) (echo : Byte) (r : Reply) (m : ChanNum) :
    (s.answer ch echo r).chan m = s.chan m := rfl
@[simp] theorem State.answer_wait (s : State) (ch : ChanNum) (echo : Byte) (r : Reply) (m : CtxNum) :
    (s.answer ch echo r).wait m = s.wait m := rfl
@[simp] theorem State.answer_headRec (s : State) (ch : ChanNum) (echo : Byte) (r : Reply) (m : HeadNum) :
    (s.answer ch echo r).headRec m = s.headRec m := rfl
@[simp] theorem State.answer_inService (s : State) (ch : ChanNum) (echo : Byte) (r : Reply) (m : HeadNum) :
    (s.answer ch echo r).inService m = s.inService m := rfl
@[simp] theorem State.answer_plan (s : State) (ch : ChanNum) (echo : Byte) (r : Reply) (m : HeadNum) :
    (s.answer ch echo r).plan m = s.plan m := rfl
@[simp] theorem State.answer_freeCount (s : State) (ch : ChanNum) (echo : Byte) (r : Reply) (m : HeadNum) :
    (s.answer ch echo r).freeCount m = s.freeCount m := rfl
@[simp] theorem State.answer_zone (s : State) (ch : ChanNum) (echo : Byte) (r : Reply) (m : Fin 8) :
    (s.answer ch echo r).zone m = s.zone m := rfl
@[simp] theorem State.answer_vessel (s : State) (ch : ChanNum) (echo : Byte) (r : Reply) (m : Fin 4) :
    (s.answer ch echo r).vessel m = s.vessel m := rfl
@[simp] theorem State.answer_eventRec (s : State) (ch : ChanNum) (echo : Byte) (r : Reply) (m : EventClass) :
    (s.answer ch echo r).eventRec m = s.eventRec m := rfl

/-! ### setChanState -/

@[simp] theorem State.setChanState_pending (s : State) (ch : ChanNum) (st : ChanState) : (s.setChanState ch st).pending = s.pending := rfl
@[simp] theorem State.setChanState_resetLow (s : State) (ch : ChanNum) (st : ChanState) : (s.setChanState ch st).resetLow = s.resetLow := rfl
@[simp] theorem State.setChanState_clock (s : State) (ch : ChanNum) (st : ChanState) : (s.setChanState ch st).clock = s.clock := rfl
@[simp] theorem State.setChanState_contexts (s : State) (ch : ChanNum) (st : ChanState) : (s.setChanState ch st).contexts = s.contexts := rfl
@[simp] theorem State.setChanState_idMap (s : State) (ch : ChanNum) (st : ChanState) : (s.setChanState ch st).idMap = s.idMap := rfl
@[simp] theorem State.setChanState_freeList (s : State) (ch : ChanNum) (st : ChanState) : (s.setChanState ch st).freeList = s.freeList := rfl
@[simp] theorem State.setChanState_craneCount (s : State) (ch : ChanNum) (st : ChanState) : (s.setChanState ch st).craneCount = s.craneCount := rfl
@[simp] theorem State.setChanState_waits (s : State) (ch : ChanNum) (st : ChanState) : (s.setChanState ch st).waits = s.waits := rfl
@[simp] theorem State.setChanState_heads (s : State) (ch : ChanNum) (st : ChanState) : (s.setChanState ch st).heads = s.heads := rfl
@[simp] theorem State.setChanState_plans (s : State) (ch : ChanNum) (st : ChanState) : (s.setChanState ch st).plans = s.plans := rfl
@[simp] theorem State.setChanState_zones (s : State) (ch : ChanNum) (st : ChanState) : (s.setChanState ch st).zones = s.zones := rfl
@[simp] theorem State.setChanState_vessels (s : State) (ch : ChanNum) (st : ChanState) : (s.setChanState ch st).vessels = s.vessels := rfl
@[simp] theorem State.setChanState_dueList (s : State) (ch : ChanNum) (st : ChanState) : (s.setChanState ch st).dueList = s.dueList := rfl
@[simp] theorem State.setChanState_params (s : State) (ch : ChanNum) (st : ChanState) : (s.setChanState ch st).params = s.params := rfl
@[simp] theorem State.setChanState_events (s : State) (ch : ChanNum) (st : ChanState) : (s.setChanState ch st).events = s.events := rfl
@[simp] theorem State.setChanState_controlTx (s : State) (ch : ChanNum) (st : ChanState) : (s.setChanState ch st).controlTx = s.controlTx := rfl
@[simp] theorem State.setChanState_headTx (s : State) (ch : ChanNum) (st : ChanState) : (s.setChanState ch st).headTx = s.headTx := rfl
@[simp] theorem State.setChanState_controlRx (s : State) (ch : ChanNum) (st : ChanState) : (s.setChanState ch st).controlRx = s.controlRx := rfl
@[simp] theorem State.setChanState_headRx (s : State) (ch : ChanNum) (st : ChanState) : (s.setChanState ch st).headRx = s.headRx := rfl
@[simp] theorem State.setChanState_controlLine (s : State) (ch : ChanNum) (st : ChanState) : (s.setChanState ch st).controlLine = s.controlLine := rfl
@[simp] theorem State.setChanState_headLines (s : State) (ch : ChanNum) (st : ChanState) : (s.setChanState ch st).headLines = s.headLines := rfl
@[simp] theorem State.setChanState_counted (s : State) (ch : ChanNum) (st : ChanState) : (s.setChanState ch st).counted = s.counted := rfl
@[simp] theorem State.setChanState_openValues (s : State) (ch : ChanNum) (st : ChanState) : (s.setChanState ch st).openValues = s.openValues := rfl
@[simp] theorem State.setChanState_ctx (s : State) (ch : ChanNum) (st : ChanState) (m : CtxNum) :
    (s.setChanState ch st).ctx m = s.ctx m := rfl
@[simp] theorem State.setChanState_tag (s : State) (ch : ChanNum) (st : ChanState) (m : CtxNum) :
    (s.setChanState ch st).tag m = s.tag m := rfl
@[simp] theorem State.setChanState_wait (s : State) (ch : ChanNum) (st : ChanState) (m : CtxNum) :
    (s.setChanState ch st).wait m = s.wait m := rfl
@[simp] theorem State.setChanState_headRec (s : State) (ch : ChanNum) (st : ChanState) (m : HeadNum) :
    (s.setChanState ch st).headRec m = s.headRec m := rfl
@[simp] theorem State.setChanState_inService (s : State) (ch : ChanNum) (st : ChanState) (m : HeadNum) :
    (s.setChanState ch st).inService m = s.inService m := rfl
@[simp] theorem State.setChanState_plan (s : State) (ch : ChanNum) (st : ChanState) (m : HeadNum) :
    (s.setChanState ch st).plan m = s.plan m := rfl
@[simp] theorem State.setChanState_freeCount (s : State) (ch : ChanNum) (st : ChanState) (m : HeadNum) :
    (s.setChanState ch st).freeCount m = s.freeCount m := rfl
@[simp] theorem State.setChanState_zone (s : State) (ch : ChanNum) (st : ChanState) (m : Fin 8) :
    (s.setChanState ch st).zone m = s.zone m := rfl
@[simp] theorem State.setChanState_vessel (s : State) (ch : ChanNum) (st : ChanState) (m : Fin 4) :
    (s.setChanState ch st).vessel m = s.vessel m := rfl
@[simp] theorem State.setChanState_eventRec (s : State) (ch : ChanNum) (st : ChanState) (m : EventClass) :
    (s.setChanState ch st).eventRec m = s.eventRec m := rfl

/-! ### raise -/

@[simp] theorem State.raise_pending (s : State) (c : EventClass) (x : Subject) : (s.raise c x).pending = s.pending := rfl
@[simp] theorem State.raise_resetLow (s : State) (c : EventClass) (x : Subject) : (s.raise c x).resetLow = s.resetLow := rfl
@[simp] theorem State.raise_clock (s : State) (c : EventClass) (x : Subject) : (s.raise c x).clock = s.clock := rfl
@[simp] theorem State.raise_contexts (s : State) (c : EventClass) (x : Subject) : (s.raise c x).contexts = s.contexts := rfl
@[simp] theorem State.raise_idMap (s : State) (c : EventClass) (x : Subject) : (s.raise c x).idMap = s.idMap := rfl
@[simp] theorem State.raise_freeList (s : State) (c : EventClass) (x : Subject) : (s.raise c x).freeList = s.freeList := rfl
@[simp] theorem State.raise_craneCount (s : State) (c : EventClass) (x : Subject) : (s.raise c x).craneCount = s.craneCount := rfl
@[simp] theorem State.raise_channels (s : State) (c : EventClass) (x : Subject) : (s.raise c x).channels = s.channels := rfl
@[simp] theorem State.raise_waits (s : State) (c : EventClass) (x : Subject) : (s.raise c x).waits = s.waits := rfl
@[simp] theorem State.raise_heads (s : State) (c : EventClass) (x : Subject) : (s.raise c x).heads = s.heads := rfl
@[simp] theorem State.raise_plans (s : State) (c : EventClass) (x : Subject) : (s.raise c x).plans = s.plans := rfl
@[simp] theorem State.raise_zones (s : State) (c : EventClass) (x : Subject) : (s.raise c x).zones = s.zones := rfl
@[simp] theorem State.raise_vessels (s : State) (c : EventClass) (x : Subject) : (s.raise c x).vessels = s.vessels := rfl
@[simp] theorem State.raise_dueList (s : State) (c : EventClass) (x : Subject) : (s.raise c x).dueList = s.dueList := rfl
@[simp] theorem State.raise_params (s : State) (c : EventClass) (x : Subject) : (s.raise c x).params = s.params := rfl
@[simp] theorem State.raise_controlTx (s : State) (c : EventClass) (x : Subject) : (s.raise c x).controlTx = s.controlTx := rfl
@[simp] theorem State.raise_headTx (s : State) (c : EventClass) (x : Subject) : (s.raise c x).headTx = s.headTx := rfl
@[simp] theorem State.raise_controlRx (s : State) (c : EventClass) (x : Subject) : (s.raise c x).controlRx = s.controlRx := rfl
@[simp] theorem State.raise_headRx (s : State) (c : EventClass) (x : Subject) : (s.raise c x).headRx = s.headRx := rfl
@[simp] theorem State.raise_controlLine (s : State) (c : EventClass) (x : Subject) : (s.raise c x).controlLine = s.controlLine := rfl
@[simp] theorem State.raise_headLines (s : State) (c : EventClass) (x : Subject) : (s.raise c x).headLines = s.headLines := rfl
@[simp] theorem State.raise_counted (s : State) (c : EventClass) (x : Subject) : (s.raise c x).counted = s.counted := rfl
@[simp] theorem State.raise_openValues (s : State) (c : EventClass) (x : Subject) : (s.raise c x).openValues = s.openValues := rfl
@[simp] theorem State.raise_ctx (s : State) (c : EventClass) (x : Subject) (m : CtxNum) :
    (s.raise c x).ctx m = s.ctx m := rfl
@[simp] theorem State.raise_tag (s : State) (c : EventClass) (x : Subject) (m : CtxNum) :
    (s.raise c x).tag m = s.tag m := rfl
@[simp] theorem State.raise_chan (s : State) (c : EventClass) (x : Subject) (m : ChanNum) :
    (s.raise c x).chan m = s.chan m := rfl
@[simp] theorem State.raise_wait (s : State) (c : EventClass) (x : Subject) (m : CtxNum) :
    (s.raise c x).wait m = s.wait m := rfl
@[simp] theorem State.raise_headRec (s : State) (c : EventClass) (x : Subject) (m : HeadNum) :
    (s.raise c x).headRec m = s.headRec m := rfl
@[simp] theorem State.raise_inService (s : State) (c : EventClass) (x : Subject) (m : HeadNum) :
    (s.raise c x).inService m = s.inService m := rfl
@[simp] theorem State.raise_plan (s : State) (c : EventClass) (x : Subject) (m : HeadNum) :
    (s.raise c x).plan m = s.plan m := rfl
@[simp] theorem State.raise_freeCount (s : State) (c : EventClass) (x : Subject) (m : HeadNum) :
    (s.raise c x).freeCount m = s.freeCount m := rfl
@[simp] theorem State.raise_zone (s : State) (c : EventClass) (x : Subject) (m : Fin 8) :
    (s.raise c x).zone m = s.zone m := rfl
@[simp] theorem State.raise_vessel (s : State) (c : EventClass) (x : Subject) (m : Fin 4) :
    (s.raise c x).vessel m = s.vessel m := rfl

/-! ### finish -/

@[simp] theorem State.finish_pending (s : State) (ch : ChanNum) (echo : Byte) (r : Reply) : (s.finish ch echo r).pending = s.pending := rfl
@[simp] theorem State.finish_resetLow (s : State) (ch : ChanNum) (echo : Byte) (r : Reply) : (s.finish ch echo r).resetLow = s.resetLow := rfl
@[simp] theorem State.finish_clock (s : State) (ch : ChanNum) (echo : Byte) (r : Reply) : (s.finish ch echo r).clock = s.clock := rfl
@[simp] theorem State.finish_contexts (s : State) (ch : ChanNum) (echo : Byte) (r : Reply) : (s.finish ch echo r).contexts = s.contexts := rfl
@[simp] theorem State.finish_idMap (s : State) (ch : ChanNum) (echo : Byte) (r : Reply) : (s.finish ch echo r).idMap = s.idMap := rfl
@[simp] theorem State.finish_freeList (s : State) (ch : ChanNum) (echo : Byte) (r : Reply) : (s.finish ch echo r).freeList = s.freeList := rfl
@[simp] theorem State.finish_craneCount (s : State) (ch : ChanNum) (echo : Byte) (r : Reply) : (s.finish ch echo r).craneCount = s.craneCount := rfl
@[simp] theorem State.finish_waits (s : State) (ch : ChanNum) (echo : Byte) (r : Reply) : (s.finish ch echo r).waits = s.waits := rfl
@[simp] theorem State.finish_heads (s : State) (ch : ChanNum) (echo : Byte) (r : Reply) : (s.finish ch echo r).heads = s.heads := rfl
@[simp] theorem State.finish_plans (s : State) (ch : ChanNum) (echo : Byte) (r : Reply) : (s.finish ch echo r).plans = s.plans := rfl
@[simp] theorem State.finish_zones (s : State) (ch : ChanNum) (echo : Byte) (r : Reply) : (s.finish ch echo r).zones = s.zones := rfl
@[simp] theorem State.finish_vessels (s : State) (ch : ChanNum) (echo : Byte) (r : Reply) : (s.finish ch echo r).vessels = s.vessels := rfl
@[simp] theorem State.finish_dueList (s : State) (ch : ChanNum) (echo : Byte) (r : Reply) : (s.finish ch echo r).dueList = s.dueList := rfl
@[simp] theorem State.finish_params (s : State) (ch : ChanNum) (echo : Byte) (r : Reply) : (s.finish ch echo r).params = s.params := rfl
@[simp] theorem State.finish_events (s : State) (ch : ChanNum) (echo : Byte) (r : Reply) : (s.finish ch echo r).events = s.events := rfl
@[simp] theorem State.finish_headTx (s : State) (ch : ChanNum) (echo : Byte) (r : Reply) : (s.finish ch echo r).headTx = s.headTx := rfl
@[simp] theorem State.finish_controlRx (s : State) (ch : ChanNum) (echo : Byte) (r : Reply) : (s.finish ch echo r).controlRx = s.controlRx := rfl
@[simp] theorem State.finish_headRx (s : State) (ch : ChanNum) (echo : Byte) (r : Reply) : (s.finish ch echo r).headRx = s.headRx := rfl
@[simp] theorem State.finish_controlLine (s : State) (ch : ChanNum) (echo : Byte) (r : Reply) : (s.finish ch echo r).controlLine = s.controlLine := rfl
@[simp] theorem State.finish_headLines (s : State) (ch : ChanNum) (echo : Byte) (r : Reply) : (s.finish ch echo r).headLines = s.headLines := rfl
@[simp] theorem State.finish_counted (s : State) (ch : ChanNum) (echo : Byte) (r : Reply) : (s.finish ch echo r).counted = s.counted := rfl
@[simp] theorem State.finish_openValues (s : State) (ch : ChanNum) (echo : Byte) (r : Reply) : (s.finish ch echo r).openValues = s.openValues := rfl
@[simp] theorem State.finish_ctx (s : State) (ch : ChanNum) (echo : Byte) (r : Reply) (m : CtxNum) :
    (s.finish ch echo r).ctx m = s.ctx m := rfl
@[simp] theorem State.finish_tag (s : State) (ch : ChanNum) (echo : Byte) (r : Reply) (m : CtxNum) :
    (s.finish ch echo r).tag m = s.tag m := rfl
@[simp] theorem State.finish_wait (s : State) (ch : ChanNum) (echo : Byte) (r : Reply) (m : CtxNum) :
    (s.finish ch echo r).wait m = s.wait m := rfl
@[simp] theorem State.finish_headRec (s : State) (ch : ChanNum) (echo : Byte) (r : Reply) (m : HeadNum) :
    (s.finish ch echo r).headRec m = s.headRec m := rfl
@[simp] theorem State.finish_inService (s : State) (ch : ChanNum) (echo : Byte) (r : Reply) (m : HeadNum) :
    (s.finish ch echo r).inService m = s.inService m := rfl
@[simp] theorem State.finish_plan (s : State) (ch : ChanNum) (echo : Byte) (r : Reply) (m : HeadNum) :
    (s.finish ch echo r).plan m = s.plan m := rfl
@[simp] theorem State.finish_freeCount (s : State) (ch : ChanNum) (echo : Byte) (r : Reply) (m : HeadNum) :
    (s.finish ch echo r).freeCount m = s.freeCount m := rfl
@[simp] theorem State.finish_zone (s : State) (ch : ChanNum) (echo : Byte) (r : Reply) (m : Fin 8) :
    (s.finish ch echo r).zone m = s.zone m := rfl
@[simp] theorem State.finish_vessel (s : State) (ch : ChanNum) (echo : Byte) (r : Reply) (m : Fin 4) :
    (s.finish ch echo r).vessel m = s.vessel m := rfl
@[simp] theorem State.finish_eventRec (s : State) (ch : ChanNum) (echo : Byte) (r : Reply) (m : EventClass) :
    (s.finish ch echo r).eventRec m = s.eventRec m := rfl

/-! ### addLoad -/

@[simp] theorem State.addLoad_pending (s : State) (h : HeadNum) : (s.addLoad h).pending = s.pending := rfl
@[simp] theorem State.addLoad_resetLow (s : State) (h : HeadNum) : (s.addLoad h).resetLow = s.resetLow := rfl
@[simp] theorem State.addLoad_clock (s : State) (h : HeadNum) : (s.addLoad h).clock = s.clock := rfl
@[simp] theorem State.addLoad_contexts (s : State) (h : HeadNum) : (s.addLoad h).contexts = s.contexts := rfl
@[simp] theorem State.addLoad_idMap (s : State) (h : HeadNum) : (s.addLoad h).idMap = s.idMap := rfl
@[simp] theorem State.addLoad_freeList (s : State) (h : HeadNum) : (s.addLoad h).freeList = s.freeList := rfl
@[simp] theorem State.addLoad_craneCount (s : State) (h : HeadNum) : (s.addLoad h).craneCount = s.craneCount := rfl
@[simp] theorem State.addLoad_channels (s : State) (h : HeadNum) : (s.addLoad h).channels = s.channels := rfl
@[simp] theorem State.addLoad_waits (s : State) (h : HeadNum) : (s.addLoad h).waits = s.waits := rfl
@[simp] theorem State.addLoad_plans (s : State) (h : HeadNum) : (s.addLoad h).plans = s.plans := rfl
@[simp] theorem State.addLoad_zones (s : State) (h : HeadNum) : (s.addLoad h).zones = s.zones := rfl
@[simp] theorem State.addLoad_vessels (s : State) (h : HeadNum) : (s.addLoad h).vessels = s.vessels := rfl
@[simp] theorem State.addLoad_dueList (s : State) (h : HeadNum) : (s.addLoad h).dueList = s.dueList := rfl
@[simp] theorem State.addLoad_params (s : State) (h : HeadNum) : (s.addLoad h).params = s.params := rfl
@[simp] theorem State.addLoad_events (s : State) (h : HeadNum) : (s.addLoad h).events = s.events := rfl
@[simp] theorem State.addLoad_controlTx (s : State) (h : HeadNum) : (s.addLoad h).controlTx = s.controlTx := rfl
@[simp] theorem State.addLoad_headTx (s : State) (h : HeadNum) : (s.addLoad h).headTx = s.headTx := rfl
@[simp] theorem State.addLoad_controlRx (s : State) (h : HeadNum) : (s.addLoad h).controlRx = s.controlRx := rfl
@[simp] theorem State.addLoad_headRx (s : State) (h : HeadNum) : (s.addLoad h).headRx = s.headRx := rfl
@[simp] theorem State.addLoad_controlLine (s : State) (h : HeadNum) : (s.addLoad h).controlLine = s.controlLine := rfl
@[simp] theorem State.addLoad_headLines (s : State) (h : HeadNum) : (s.addLoad h).headLines = s.headLines := rfl
@[simp] theorem State.addLoad_counted (s : State) (h : HeadNum) : (s.addLoad h).counted = s.counted := rfl
@[simp] theorem State.addLoad_openValues (s : State) (h : HeadNum) : (s.addLoad h).openValues = s.openValues := rfl
@[simp] theorem State.addLoad_ctx (s : State) (h : HeadNum) (m : CtxNum) :
    (s.addLoad h).ctx m = s.ctx m := rfl
@[simp] theorem State.addLoad_tag (s : State) (h : HeadNum) (m : CtxNum) :
    (s.addLoad h).tag m = s.tag m := rfl
@[simp] theorem State.addLoad_chan (s : State) (h : HeadNum) (m : ChanNum) :
    (s.addLoad h).chan m = s.chan m := rfl
@[simp] theorem State.addLoad_wait (s : State) (h : HeadNum) (m : CtxNum) :
    (s.addLoad h).wait m = s.wait m := rfl
@[simp] theorem State.addLoad_plan (s : State) (h : HeadNum) (m : HeadNum) :
    (s.addLoad h).plan m = s.plan m := rfl
@[simp] theorem State.addLoad_freeCount (s : State) (h : HeadNum) (m : HeadNum) :
    (s.addLoad h).freeCount m = s.freeCount m := rfl
@[simp] theorem State.addLoad_zone (s : State) (h : HeadNum) (m : Fin 8) :
    (s.addLoad h).zone m = s.zone m := rfl
@[simp] theorem State.addLoad_vessel (s : State) (h : HeadNum) (m : Fin 4) :
    (s.addLoad h).vessel m = s.vessel m := rfl
@[simp] theorem State.addLoad_eventRec (s : State) (h : HeadNum) (m : EventClass) :
    (s.addLoad h).eventRec m = s.eventRec m := rfl

/-! ### subLoad -/

@[simp] theorem State.subLoad_pending (s : State) (h : HeadNum) : (s.subLoad h).pending = s.pending := rfl
@[simp] theorem State.subLoad_resetLow (s : State) (h : HeadNum) : (s.subLoad h).resetLow = s.resetLow := rfl
@[simp] theorem State.subLoad_clock (s : State) (h : HeadNum) : (s.subLoad h).clock = s.clock := rfl
@[simp] theorem State.subLoad_contexts (s : State) (h : HeadNum) : (s.subLoad h).contexts = s.contexts := rfl
@[simp] theorem State.subLoad_idMap (s : State) (h : HeadNum) : (s.subLoad h).idMap = s.idMap := rfl
@[simp] theorem State.subLoad_freeList (s : State) (h : HeadNum) : (s.subLoad h).freeList = s.freeList := rfl
@[simp] theorem State.subLoad_craneCount (s : State) (h : HeadNum) : (s.subLoad h).craneCount = s.craneCount := rfl
@[simp] theorem State.subLoad_channels (s : State) (h : HeadNum) : (s.subLoad h).channels = s.channels := rfl
@[simp] theorem State.subLoad_waits (s : State) (h : HeadNum) : (s.subLoad h).waits = s.waits := rfl
@[simp] theorem State.subLoad_plans (s : State) (h : HeadNum) : (s.subLoad h).plans = s.plans := rfl
@[simp] theorem State.subLoad_zones (s : State) (h : HeadNum) : (s.subLoad h).zones = s.zones := rfl
@[simp] theorem State.subLoad_vessels (s : State) (h : HeadNum) : (s.subLoad h).vessels = s.vessels := rfl
@[simp] theorem State.subLoad_dueList (s : State) (h : HeadNum) : (s.subLoad h).dueList = s.dueList := rfl
@[simp] theorem State.subLoad_params (s : State) (h : HeadNum) : (s.subLoad h).params = s.params := rfl
@[simp] theorem State.subLoad_events (s : State) (h : HeadNum) : (s.subLoad h).events = s.events := rfl
@[simp] theorem State.subLoad_controlTx (s : State) (h : HeadNum) : (s.subLoad h).controlTx = s.controlTx := rfl
@[simp] theorem State.subLoad_headTx (s : State) (h : HeadNum) : (s.subLoad h).headTx = s.headTx := rfl
@[simp] theorem State.subLoad_controlRx (s : State) (h : HeadNum) : (s.subLoad h).controlRx = s.controlRx := rfl
@[simp] theorem State.subLoad_headRx (s : State) (h : HeadNum) : (s.subLoad h).headRx = s.headRx := rfl
@[simp] theorem State.subLoad_controlLine (s : State) (h : HeadNum) : (s.subLoad h).controlLine = s.controlLine := rfl
@[simp] theorem State.subLoad_headLines (s : State) (h : HeadNum) : (s.subLoad h).headLines = s.headLines := rfl
@[simp] theorem State.subLoad_counted (s : State) (h : HeadNum) : (s.subLoad h).counted = s.counted := rfl
@[simp] theorem State.subLoad_openValues (s : State) (h : HeadNum) : (s.subLoad h).openValues = s.openValues := rfl
@[simp] theorem State.subLoad_ctx (s : State) (h : HeadNum) (m : CtxNum) :
    (s.subLoad h).ctx m = s.ctx m := rfl
@[simp] theorem State.subLoad_tag (s : State) (h : HeadNum) (m : CtxNum) :
    (s.subLoad h).tag m = s.tag m := rfl
@[simp] theorem State.subLoad_chan (s : State) (h : HeadNum) (m : ChanNum) :
    (s.subLoad h).chan m = s.chan m := rfl
@[simp] theorem State.subLoad_wait (s : State) (h : HeadNum) (m : CtxNum) :
    (s.subLoad h).wait m = s.wait m := rfl
@[simp] theorem State.subLoad_plan (s : State) (h : HeadNum) (m : HeadNum) :
    (s.subLoad h).plan m = s.plan m := rfl
@[simp] theorem State.subLoad_freeCount (s : State) (h : HeadNum) (m : HeadNum) :
    (s.subLoad h).freeCount m = s.freeCount m := rfl
@[simp] theorem State.subLoad_zone (s : State) (h : HeadNum) (m : Fin 8) :
    (s.subLoad h).zone m = s.zone m := rfl
@[simp] theorem State.subLoad_vessel (s : State) (h : HeadNum) (m : Fin 4) :
    (s.subLoad h).vessel m = s.vessel m := rfl
@[simp] theorem State.subLoad_eventRec (s : State) (h : HeadNum) (m : EventClass) :
    (s.subLoad h).eventRec m = s.eventRec m := rfl

/-! ### setDue -/

@[simp] theorem State.setDue_pending (s : State) (n : CtxNum) (t : Time) : (s.setDue n t).pending = s.pending := rfl
@[simp] theorem State.setDue_resetLow (s : State) (n : CtxNum) (t : Time) : (s.setDue n t).resetLow = s.resetLow := rfl
@[simp] theorem State.setDue_clock (s : State) (n : CtxNum) (t : Time) : (s.setDue n t).clock = s.clock := rfl
@[simp] theorem State.setDue_idMap (s : State) (n : CtxNum) (t : Time) : (s.setDue n t).idMap = s.idMap := rfl
@[simp] theorem State.setDue_freeList (s : State) (n : CtxNum) (t : Time) : (s.setDue n t).freeList = s.freeList := rfl
@[simp] theorem State.setDue_craneCount (s : State) (n : CtxNum) (t : Time) : (s.setDue n t).craneCount = s.craneCount := rfl
@[simp] theorem State.setDue_channels (s : State) (n : CtxNum) (t : Time) : (s.setDue n t).channels = s.channels := rfl
@[simp] theorem State.setDue_waits (s : State) (n : CtxNum) (t : Time) : (s.setDue n t).waits = s.waits := rfl
@[simp] theorem State.setDue_heads (s : State) (n : CtxNum) (t : Time) : (s.setDue n t).heads = s.heads := rfl
@[simp] theorem State.setDue_plans (s : State) (n : CtxNum) (t : Time) : (s.setDue n t).plans = s.plans := rfl
@[simp] theorem State.setDue_zones (s : State) (n : CtxNum) (t : Time) : (s.setDue n t).zones = s.zones := rfl
@[simp] theorem State.setDue_vessels (s : State) (n : CtxNum) (t : Time) : (s.setDue n t).vessels = s.vessels := rfl
@[simp] theorem State.setDue_params (s : State) (n : CtxNum) (t : Time) : (s.setDue n t).params = s.params := rfl
@[simp] theorem State.setDue_events (s : State) (n : CtxNum) (t : Time) : (s.setDue n t).events = s.events := rfl
@[simp] theorem State.setDue_controlTx (s : State) (n : CtxNum) (t : Time) : (s.setDue n t).controlTx = s.controlTx := rfl
@[simp] theorem State.setDue_headTx (s : State) (n : CtxNum) (t : Time) : (s.setDue n t).headTx = s.headTx := rfl
@[simp] theorem State.setDue_controlRx (s : State) (n : CtxNum) (t : Time) : (s.setDue n t).controlRx = s.controlRx := rfl
@[simp] theorem State.setDue_headRx (s : State) (n : CtxNum) (t : Time) : (s.setDue n t).headRx = s.headRx := rfl
@[simp] theorem State.setDue_controlLine (s : State) (n : CtxNum) (t : Time) : (s.setDue n t).controlLine = s.controlLine := rfl
@[simp] theorem State.setDue_headLines (s : State) (n : CtxNum) (t : Time) : (s.setDue n t).headLines = s.headLines := rfl
@[simp] theorem State.setDue_counted (s : State) (n : CtxNum) (t : Time) : (s.setDue n t).counted = s.counted := rfl
@[simp] theorem State.setDue_openValues (s : State) (n : CtxNum) (t : Time) : (s.setDue n t).openValues = s.openValues := rfl
@[simp] theorem State.setDue_chan (s : State) (n : CtxNum) (t : Time) (m : ChanNum) :
    (s.setDue n t).chan m = s.chan m := rfl
@[simp] theorem State.setDue_wait (s : State) (n : CtxNum) (t : Time) (m : CtxNum) :
    (s.setDue n t).wait m = s.wait m := rfl
@[simp] theorem State.setDue_headRec (s : State) (n : CtxNum) (t : Time) (m : HeadNum) :
    (s.setDue n t).headRec m = s.headRec m := rfl
@[simp] theorem State.setDue_inService (s : State) (n : CtxNum) (t : Time) (m : HeadNum) :
    (s.setDue n t).inService m = s.inService m := rfl
@[simp] theorem State.setDue_plan (s : State) (n : CtxNum) (t : Time) (m : HeadNum) :
    (s.setDue n t).plan m = s.plan m := rfl
@[simp] theorem State.setDue_freeCount (s : State) (n : CtxNum) (t : Time) (m : HeadNum) :
    (s.setDue n t).freeCount m = s.freeCount m := rfl
@[simp] theorem State.setDue_zone (s : State) (n : CtxNum) (t : Time) (m : Fin 8) :
    (s.setDue n t).zone m = s.zone m := rfl
@[simp] theorem State.setDue_vessel (s : State) (n : CtxNum) (t : Time) (m : Fin 4) :
    (s.setDue n t).vessel m = s.vessel m := rfl
@[simp] theorem State.setDue_eventRec (s : State) (n : CtxNum) (t : Time) (m : EventClass) :
    (s.setDue n t).eventRec m = s.eventRec m := rfl

/-! ### clearDue -/

@[simp] theorem State.clearDue_pending (s : State) (n : CtxNum) : (s.clearDue n).pending = s.pending := rfl
@[simp] theorem State.clearDue_resetLow (s : State) (n : CtxNum) : (s.clearDue n).resetLow = s.resetLow := rfl
@[simp] theorem State.clearDue_clock (s : State) (n : CtxNum) : (s.clearDue n).clock = s.clock := rfl
@[simp] theorem State.clearDue_idMap (s : State) (n : CtxNum) : (s.clearDue n).idMap = s.idMap := rfl
@[simp] theorem State.clearDue_freeList (s : State) (n : CtxNum) : (s.clearDue n).freeList = s.freeList := rfl
@[simp] theorem State.clearDue_craneCount (s : State) (n : CtxNum) : (s.clearDue n).craneCount = s.craneCount := rfl
@[simp] theorem State.clearDue_channels (s : State) (n : CtxNum) : (s.clearDue n).channels = s.channels := rfl
@[simp] theorem State.clearDue_waits (s : State) (n : CtxNum) : (s.clearDue n).waits = s.waits := rfl
@[simp] theorem State.clearDue_heads (s : State) (n : CtxNum) : (s.clearDue n).heads = s.heads := rfl
@[simp] theorem State.clearDue_plans (s : State) (n : CtxNum) : (s.clearDue n).plans = s.plans := rfl
@[simp] theorem State.clearDue_zones (s : State) (n : CtxNum) : (s.clearDue n).zones = s.zones := rfl
@[simp] theorem State.clearDue_vessels (s : State) (n : CtxNum) : (s.clearDue n).vessels = s.vessels := rfl
@[simp] theorem State.clearDue_params (s : State) (n : CtxNum) : (s.clearDue n).params = s.params := rfl
@[simp] theorem State.clearDue_events (s : State) (n : CtxNum) : (s.clearDue n).events = s.events := rfl
@[simp] theorem State.clearDue_controlTx (s : State) (n : CtxNum) : (s.clearDue n).controlTx = s.controlTx := rfl
@[simp] theorem State.clearDue_headTx (s : State) (n : CtxNum) : (s.clearDue n).headTx = s.headTx := rfl
@[simp] theorem State.clearDue_controlRx (s : State) (n : CtxNum) : (s.clearDue n).controlRx = s.controlRx := rfl
@[simp] theorem State.clearDue_headRx (s : State) (n : CtxNum) : (s.clearDue n).headRx = s.headRx := rfl
@[simp] theorem State.clearDue_controlLine (s : State) (n : CtxNum) : (s.clearDue n).controlLine = s.controlLine := rfl
@[simp] theorem State.clearDue_headLines (s : State) (n : CtxNum) : (s.clearDue n).headLines = s.headLines := rfl
@[simp] theorem State.clearDue_counted (s : State) (n : CtxNum) : (s.clearDue n).counted = s.counted := rfl
@[simp] theorem State.clearDue_openValues (s : State) (n : CtxNum) : (s.clearDue n).openValues = s.openValues := rfl
@[simp] theorem State.clearDue_chan (s : State) (n : CtxNum) (m : ChanNum) :
    (s.clearDue n).chan m = s.chan m := rfl
@[simp] theorem State.clearDue_wait (s : State) (n : CtxNum) (m : CtxNum) :
    (s.clearDue n).wait m = s.wait m := rfl
@[simp] theorem State.clearDue_headRec (s : State) (n : CtxNum) (m : HeadNum) :
    (s.clearDue n).headRec m = s.headRec m := rfl
@[simp] theorem State.clearDue_inService (s : State) (n : CtxNum) (m : HeadNum) :
    (s.clearDue n).inService m = s.inService m := rfl
@[simp] theorem State.clearDue_plan (s : State) (n : CtxNum) (m : HeadNum) :
    (s.clearDue n).plan m = s.plan m := rfl
@[simp] theorem State.clearDue_freeCount (s : State) (n : CtxNum) (m : HeadNum) :
    (s.clearDue n).freeCount m = s.freeCount m := rfl
@[simp] theorem State.clearDue_zone (s : State) (n : CtxNum) (m : Fin 8) :
    (s.clearDue n).zone m = s.zone m := rfl
@[simp] theorem State.clearDue_vessel (s : State) (n : CtxNum) (m : Fin 4) :
    (s.clearDue n).vessel m = s.vessel m := rfl
@[simp] theorem State.clearDue_eventRec (s : State) (n : CtxNum) (m : EventClass) :
    (s.clearDue n).eventRec m = s.eventRec m := rfl

/-! ### grantHold -/

@[simp] theorem State.grantHold_pending (s : State) (n : CtxNum) (ch : ChanNum) : (s.grantHold n ch).pending = s.pending := rfl
@[simp] theorem State.grantHold_resetLow (s : State) (n : CtxNum) (ch : ChanNum) : (s.grantHold n ch).resetLow = s.resetLow := rfl
@[simp] theorem State.grantHold_clock (s : State) (n : CtxNum) (ch : ChanNum) : (s.grantHold n ch).clock = s.clock := rfl
@[simp] theorem State.grantHold_idMap (s : State) (n : CtxNum) (ch : ChanNum) : (s.grantHold n ch).idMap = s.idMap := rfl
@[simp] theorem State.grantHold_freeList (s : State) (n : CtxNum) (ch : ChanNum) : (s.grantHold n ch).freeList = s.freeList := rfl
@[simp] theorem State.grantHold_craneCount (s : State) (n : CtxNum) (ch : ChanNum) : (s.grantHold n ch).craneCount = s.craneCount := rfl
@[simp] theorem State.grantHold_waits (s : State) (n : CtxNum) (ch : ChanNum) : (s.grantHold n ch).waits = s.waits := rfl
@[simp] theorem State.grantHold_heads (s : State) (n : CtxNum) (ch : ChanNum) : (s.grantHold n ch).heads = s.heads := rfl
@[simp] theorem State.grantHold_plans (s : State) (n : CtxNum) (ch : ChanNum) : (s.grantHold n ch).plans = s.plans := rfl
@[simp] theorem State.grantHold_zones (s : State) (n : CtxNum) (ch : ChanNum) : (s.grantHold n ch).zones = s.zones := rfl
@[simp] theorem State.grantHold_vessels (s : State) (n : CtxNum) (ch : ChanNum) : (s.grantHold n ch).vessels = s.vessels := rfl
@[simp] theorem State.grantHold_dueList (s : State) (n : CtxNum) (ch : ChanNum) : (s.grantHold n ch).dueList = s.dueList := rfl
@[simp] theorem State.grantHold_params (s : State) (n : CtxNum) (ch : ChanNum) : (s.grantHold n ch).params = s.params := rfl
@[simp] theorem State.grantHold_events (s : State) (n : CtxNum) (ch : ChanNum) : (s.grantHold n ch).events = s.events := rfl
@[simp] theorem State.grantHold_controlTx (s : State) (n : CtxNum) (ch : ChanNum) : (s.grantHold n ch).controlTx = s.controlTx := rfl
@[simp] theorem State.grantHold_headTx (s : State) (n : CtxNum) (ch : ChanNum) : (s.grantHold n ch).headTx = s.headTx := rfl
@[simp] theorem State.grantHold_controlRx (s : State) (n : CtxNum) (ch : ChanNum) : (s.grantHold n ch).controlRx = s.controlRx := rfl
@[simp] theorem State.grantHold_headRx (s : State) (n : CtxNum) (ch : ChanNum) : (s.grantHold n ch).headRx = s.headRx := rfl
@[simp] theorem State.grantHold_controlLine (s : State) (n : CtxNum) (ch : ChanNum) : (s.grantHold n ch).controlLine = s.controlLine := rfl
@[simp] theorem State.grantHold_headLines (s : State) (n : CtxNum) (ch : ChanNum) : (s.grantHold n ch).headLines = s.headLines := rfl
@[simp] theorem State.grantHold_counted (s : State) (n : CtxNum) (ch : ChanNum) : (s.grantHold n ch).counted = s.counted := rfl
@[simp] theorem State.grantHold_openValues (s : State) (n : CtxNum) (ch : ChanNum) : (s.grantHold n ch).openValues = s.openValues := rfl
@[simp] theorem State.grantHold_wait (s : State) (n : CtxNum) (ch : ChanNum) (m : CtxNum) :
    (s.grantHold n ch).wait m = s.wait m := rfl
@[simp] theorem State.grantHold_headRec (s : State) (n : CtxNum) (ch : ChanNum) (m : HeadNum) :
    (s.grantHold n ch).headRec m = s.headRec m := rfl
@[simp] theorem State.grantHold_inService (s : State) (n : CtxNum) (ch : ChanNum) (m : HeadNum) :
    (s.grantHold n ch).inService m = s.inService m := rfl
@[simp] theorem State.grantHold_plan (s : State) (n : CtxNum) (ch : ChanNum) (m : HeadNum) :
    (s.grantHold n ch).plan m = s.plan m := rfl
@[simp] theorem State.grantHold_freeCount (s : State) (n : CtxNum) (ch : ChanNum) (m : HeadNum) :
    (s.grantHold n ch).freeCount m = s.freeCount m := rfl
@[simp] theorem State.grantHold_zone (s : State) (n : CtxNum) (ch : ChanNum) (m : Fin 8) :
    (s.grantHold n ch).zone m = s.zone m := rfl
@[simp] theorem State.grantHold_vessel (s : State) (n : CtxNum) (ch : ChanNum) (m : Fin 4) :
    (s.grantHold n ch).vessel m = s.vessel m := rfl
@[simp] theorem State.grantHold_eventRec (s : State) (n : CtxNum) (ch : ChanNum) (m : EventClass) :
    (s.grantHold n ch).eventRec m = s.eventRec m := rfl

/-! ### dropHold -/

@[simp] theorem State.dropHold_pending (s : State) (n : CtxNum) (ch : ChanNum) : (s.dropHold n ch).pending = s.pending := rfl
@[simp] theorem State.dropHold_resetLow (s : State) (n : CtxNum) (ch : ChanNum) : (s.dropHold n ch).resetLow = s.resetLow := rfl
@[simp] theorem State.dropHold_clock (s : State) (n : CtxNum) (ch : ChanNum) : (s.dropHold n ch).clock = s.clock := rfl
@[simp] theorem State.dropHold_idMap (s : State) (n : CtxNum) (ch : ChanNum) : (s.dropHold n ch).idMap = s.idMap := rfl
@[simp] theorem State.dropHold_freeList (s : State) (n : CtxNum) (ch : ChanNum) : (s.dropHold n ch).freeList = s.freeList := rfl
@[simp] theorem State.dropHold_craneCount (s : State) (n : CtxNum) (ch : ChanNum) : (s.dropHold n ch).craneCount = s.craneCount := rfl
@[simp] theorem State.dropHold_waits (s : State) (n : CtxNum) (ch : ChanNum) : (s.dropHold n ch).waits = s.waits := rfl
@[simp] theorem State.dropHold_heads (s : State) (n : CtxNum) (ch : ChanNum) : (s.dropHold n ch).heads = s.heads := rfl
@[simp] theorem State.dropHold_plans (s : State) (n : CtxNum) (ch : ChanNum) : (s.dropHold n ch).plans = s.plans := rfl
@[simp] theorem State.dropHold_zones (s : State) (n : CtxNum) (ch : ChanNum) : (s.dropHold n ch).zones = s.zones := rfl
@[simp] theorem State.dropHold_vessels (s : State) (n : CtxNum) (ch : ChanNum) : (s.dropHold n ch).vessels = s.vessels := rfl
@[simp] theorem State.dropHold_dueList (s : State) (n : CtxNum) (ch : ChanNum) : (s.dropHold n ch).dueList = s.dueList := rfl
@[simp] theorem State.dropHold_params (s : State) (n : CtxNum) (ch : ChanNum) : (s.dropHold n ch).params = s.params := rfl
@[simp] theorem State.dropHold_events (s : State) (n : CtxNum) (ch : ChanNum) : (s.dropHold n ch).events = s.events := rfl
@[simp] theorem State.dropHold_controlTx (s : State) (n : CtxNum) (ch : ChanNum) : (s.dropHold n ch).controlTx = s.controlTx := rfl
@[simp] theorem State.dropHold_headTx (s : State) (n : CtxNum) (ch : ChanNum) : (s.dropHold n ch).headTx = s.headTx := rfl
@[simp] theorem State.dropHold_controlRx (s : State) (n : CtxNum) (ch : ChanNum) : (s.dropHold n ch).controlRx = s.controlRx := rfl
@[simp] theorem State.dropHold_headRx (s : State) (n : CtxNum) (ch : ChanNum) : (s.dropHold n ch).headRx = s.headRx := rfl
@[simp] theorem State.dropHold_controlLine (s : State) (n : CtxNum) (ch : ChanNum) : (s.dropHold n ch).controlLine = s.controlLine := rfl
@[simp] theorem State.dropHold_headLines (s : State) (n : CtxNum) (ch : ChanNum) : (s.dropHold n ch).headLines = s.headLines := rfl
@[simp] theorem State.dropHold_counted (s : State) (n : CtxNum) (ch : ChanNum) : (s.dropHold n ch).counted = s.counted := rfl
@[simp] theorem State.dropHold_openValues (s : State) (n : CtxNum) (ch : ChanNum) : (s.dropHold n ch).openValues = s.openValues := rfl
@[simp] theorem State.dropHold_wait (s : State) (n : CtxNum) (ch : ChanNum) (m : CtxNum) :
    (s.dropHold n ch).wait m = s.wait m := rfl
@[simp] theorem State.dropHold_headRec (s : State) (n : CtxNum) (ch : ChanNum) (m : HeadNum) :
    (s.dropHold n ch).headRec m = s.headRec m := rfl
@[simp] theorem State.dropHold_inService (s : State) (n : CtxNum) (ch : ChanNum) (m : HeadNum) :
    (s.dropHold n ch).inService m = s.inService m := rfl
@[simp] theorem State.dropHold_plan (s : State) (n : CtxNum) (ch : ChanNum) (m : HeadNum) :
    (s.dropHold n ch).plan m = s.plan m := rfl
@[simp] theorem State.dropHold_freeCount (s : State) (n : CtxNum) (ch : ChanNum) (m : HeadNum) :
    (s.dropHold n ch).freeCount m = s.freeCount m := rfl
@[simp] theorem State.dropHold_zone (s : State) (n : CtxNum) (ch : ChanNum) (m : Fin 8) :
    (s.dropHold n ch).zone m = s.zone m := rfl
@[simp] theorem State.dropHold_vessel (s : State) (n : CtxNum) (ch : ChanNum) (m : Fin 4) :
    (s.dropHold n ch).vessel m = s.vessel m := rfl
@[simp] theorem State.dropHold_eventRec (s : State) (n : CtxNum) (ch : ChanNum) (m : EventClass) :
    (s.dropHold n ch).eventRec m = s.eventRec m := rfl

/-! ### unpark -/

@[simp] theorem State.unpark_pending (s : State) (ch : ChanNum) : (s.unpark ch).pending = s.pending := rfl
@[simp] theorem State.unpark_resetLow (s : State) (ch : ChanNum) : (s.unpark ch).resetLow = s.resetLow := rfl
@[simp] theorem State.unpark_clock (s : State) (ch : ChanNum) : (s.unpark ch).clock = s.clock := rfl
@[simp] theorem State.unpark_contexts (s : State) (ch : ChanNum) : (s.unpark ch).contexts = s.contexts := rfl
@[simp] theorem State.unpark_idMap (s : State) (ch : ChanNum) : (s.unpark ch).idMap = s.idMap := rfl
@[simp] theorem State.unpark_freeList (s : State) (ch : ChanNum) : (s.unpark ch).freeList = s.freeList := rfl
@[simp] theorem State.unpark_craneCount (s : State) (ch : ChanNum) : (s.unpark ch).craneCount = s.craneCount := rfl
@[simp] theorem State.unpark_waits (s : State) (ch : ChanNum) : (s.unpark ch).waits = s.waits := rfl
@[simp] theorem State.unpark_heads (s : State) (ch : ChanNum) : (s.unpark ch).heads = s.heads := rfl
@[simp] theorem State.unpark_plans (s : State) (ch : ChanNum) : (s.unpark ch).plans = s.plans := rfl
@[simp] theorem State.unpark_zones (s : State) (ch : ChanNum) : (s.unpark ch).zones = s.zones := rfl
@[simp] theorem State.unpark_vessels (s : State) (ch : ChanNum) : (s.unpark ch).vessels = s.vessels := rfl
@[simp] theorem State.unpark_dueList (s : State) (ch : ChanNum) : (s.unpark ch).dueList = s.dueList := rfl
@[simp] theorem State.unpark_params (s : State) (ch : ChanNum) : (s.unpark ch).params = s.params := rfl
@[simp] theorem State.unpark_events (s : State) (ch : ChanNum) : (s.unpark ch).events = s.events := rfl
@[simp] theorem State.unpark_controlTx (s : State) (ch : ChanNum) : (s.unpark ch).controlTx = s.controlTx := rfl
@[simp] theorem State.unpark_headTx (s : State) (ch : ChanNum) : (s.unpark ch).headTx = s.headTx := rfl
@[simp] theorem State.unpark_controlRx (s : State) (ch : ChanNum) : (s.unpark ch).controlRx = s.controlRx := rfl
@[simp] theorem State.unpark_headRx (s : State) (ch : ChanNum) : (s.unpark ch).headRx = s.headRx := rfl
@[simp] theorem State.unpark_controlLine (s : State) (ch : ChanNum) : (s.unpark ch).controlLine = s.controlLine := rfl
@[simp] theorem State.unpark_headLines (s : State) (ch : ChanNum) : (s.unpark ch).headLines = s.headLines := rfl
@[simp] theorem State.unpark_counted (s : State) (ch : ChanNum) : (s.unpark ch).counted = s.counted := rfl
@[simp] theorem State.unpark_openValues (s : State) (ch : ChanNum) : (s.unpark ch).openValues = s.openValues := rfl
@[simp] theorem State.unpark_ctx (s : State) (ch : ChanNum) (m : CtxNum) :
    (s.unpark ch).ctx m = s.ctx m := rfl
@[simp] theorem State.unpark_tag (s : State) (ch : ChanNum) (m : CtxNum) :
    (s.unpark ch).tag m = s.tag m := rfl
@[simp] theorem State.unpark_wait (s : State) (ch : ChanNum) (m : CtxNum) :
    (s.unpark ch).wait m = s.wait m := rfl
@[simp] theorem State.unpark_headRec (s : State) (ch : ChanNum) (m : HeadNum) :
    (s.unpark ch).headRec m = s.headRec m := rfl
@[simp] theorem State.unpark_inService (s : State) (ch : ChanNum) (m : HeadNum) :
    (s.unpark ch).inService m = s.inService m := rfl
@[simp] theorem State.unpark_plan (s : State) (ch : ChanNum) (m : HeadNum) :
    (s.unpark ch).plan m = s.plan m := rfl
@[simp] theorem State.unpark_freeCount (s : State) (ch : ChanNum) (m : HeadNum) :
    (s.unpark ch).freeCount m = s.freeCount m := rfl
@[simp] theorem State.unpark_zone (s : State) (ch : ChanNum) (m : Fin 8) :
    (s.unpark ch).zone m = s.zone m := rfl
@[simp] theorem State.unpark_vessel (s : State) (ch : ChanNum) (m : Fin 4) :
    (s.unpark ch).vessel m = s.vessel m := rfl
@[simp] theorem State.unpark_eventRec (s : State) (ch : ChanNum) (m : EventClass) :
    (s.unpark ch).eventRec m = s.eventRec m := rfl

/-! ### sendHead -/

@[simp] theorem State.sendHead_pending (s : State) (h : HeadNum) (x : HeadMsg) : (s.sendHead h x).pending = s.pending := by unfold State.sendHead; split <;> rfl
@[simp] theorem State.sendHead_resetLow (s : State) (h : HeadNum) (x : HeadMsg) : (s.sendHead h x).resetLow = s.resetLow := by unfold State.sendHead; split <;> rfl
@[simp] theorem State.sendHead_clock (s : State) (h : HeadNum) (x : HeadMsg) : (s.sendHead h x).clock = s.clock := by unfold State.sendHead; split <;> rfl
@[simp] theorem State.sendHead_contexts (s : State) (h : HeadNum) (x : HeadMsg) : (s.sendHead h x).contexts = s.contexts := by unfold State.sendHead; split <;> rfl
@[simp] theorem State.sendHead_idMap (s : State) (h : HeadNum) (x : HeadMsg) : (s.sendHead h x).idMap = s.idMap := by unfold State.sendHead; split <;> rfl
@[simp] theorem State.sendHead_freeList (s : State) (h : HeadNum) (x : HeadMsg) : (s.sendHead h x).freeList = s.freeList := by unfold State.sendHead; split <;> rfl
@[simp] theorem State.sendHead_craneCount (s : State) (h : HeadNum) (x : HeadMsg) : (s.sendHead h x).craneCount = s.craneCount := by unfold State.sendHead; split <;> rfl
@[simp] theorem State.sendHead_channels (s : State) (h : HeadNum) (x : HeadMsg) : (s.sendHead h x).channels = s.channels := by unfold State.sendHead; split <;> rfl
@[simp] theorem State.sendHead_waits (s : State) (h : HeadNum) (x : HeadMsg) : (s.sendHead h x).waits = s.waits := by unfold State.sendHead; split <;> rfl
@[simp] theorem State.sendHead_heads (s : State) (h : HeadNum) (x : HeadMsg) : (s.sendHead h x).heads = s.heads := by unfold State.sendHead; split <;> rfl
@[simp] theorem State.sendHead_plans (s : State) (h : HeadNum) (x : HeadMsg) : (s.sendHead h x).plans = s.plans := by unfold State.sendHead; split <;> rfl
@[simp] theorem State.sendHead_zones (s : State) (h : HeadNum) (x : HeadMsg) : (s.sendHead h x).zones = s.zones := by unfold State.sendHead; split <;> rfl
@[simp] theorem State.sendHead_vessels (s : State) (h : HeadNum) (x : HeadMsg) : (s.sendHead h x).vessels = s.vessels := by unfold State.sendHead; split <;> rfl
@[simp] theorem State.sendHead_dueList (s : State) (h : HeadNum) (x : HeadMsg) : (s.sendHead h x).dueList = s.dueList := by unfold State.sendHead; split <;> rfl
@[simp] theorem State.sendHead_params (s : State) (h : HeadNum) (x : HeadMsg) : (s.sendHead h x).params = s.params := by unfold State.sendHead; split <;> rfl
@[simp] theorem State.sendHead_events (s : State) (h : HeadNum) (x : HeadMsg) : (s.sendHead h x).events = s.events := by unfold State.sendHead; split <;> rfl
@[simp] theorem State.sendHead_controlTx (s : State) (h : HeadNum) (x : HeadMsg) : (s.sendHead h x).controlTx = s.controlTx := by unfold State.sendHead; split <;> rfl
@[simp] theorem State.sendHead_controlRx (s : State) (h : HeadNum) (x : HeadMsg) : (s.sendHead h x).controlRx = s.controlRx := by unfold State.sendHead; split <;> rfl
@[simp] theorem State.sendHead_headRx (s : State) (h : HeadNum) (x : HeadMsg) : (s.sendHead h x).headRx = s.headRx := by unfold State.sendHead; split <;> rfl
@[simp] theorem State.sendHead_controlLine (s : State) (h : HeadNum) (x : HeadMsg) : (s.sendHead h x).controlLine = s.controlLine := by unfold State.sendHead; split <;> rfl
@[simp] theorem State.sendHead_headLines (s : State) (h : HeadNum) (x : HeadMsg) : (s.sendHead h x).headLines = s.headLines := by unfold State.sendHead; split <;> rfl
@[simp] theorem State.sendHead_counted (s : State) (h : HeadNum) (x : HeadMsg) : (s.sendHead h x).counted = s.counted := by unfold State.sendHead; split <;> rfl
@[simp] theorem State.sendHead_openValues (s : State) (h : HeadNum) (x : HeadMsg) : (s.sendHead h x).openValues = s.openValues := by unfold State.sendHead; split <;> rfl
@[simp] theorem State.sendHead_ctx (s : State) (h : HeadNum) (x : HeadMsg) (m : CtxNum) :
    (s.sendHead h x).ctx m = s.ctx m := by unfold State.sendHead; split <;> rfl
@[simp] theorem State.sendHead_tag (s : State) (h : HeadNum) (x : HeadMsg) (m : CtxNum) :
    (s.sendHead h x).tag m = s.tag m := by unfold State.sendHead; split <;> rfl
@[simp] theorem State.sendHead_chan (s : State) (h : HeadNum) (x : HeadMsg) (m : ChanNum) :
    (s.sendHead h x).chan m = s.chan m := by unfold State.sendHead; split <;> rfl
@[simp] theorem State.sendHead_wait (s : State) (h : HeadNum) (x : HeadMsg) (m : CtxNum) :
    (s.sendHead h x).wait m = s.wait m := by unfold State.sendHead; split <;> rfl
@[simp] theorem State.sendHead_headRec (s : State) (h : HeadNum) (x : HeadMsg) (m : HeadNum) :
    (s.sendHead h x).headRec m = s.headRec m := by unfold State.sendHead; split <;> rfl
@[simp] theorem State.sendHead_inService (s : State) (h : HeadNum) (x : HeadMsg) (m : HeadNum) :
    (s.sendHead h x).inService m = s.inService m := by unfold State.sendHead; split <;> rfl
@[simp] theorem State.sendHead_plan (s : State) (h : HeadNum) (x : HeadMsg) (m : HeadNum) :
    (s.sendHead h x).plan m = s.plan m := by unfold State.sendHead; split <;> rfl
@[simp] theorem State.sendHead_freeCount (s : State) (h : HeadNum) (x : HeadMsg) (m : HeadNum) :
    (s.sendHead h x).freeCount m = s.freeCount m := by unfold State.sendHead; split <;> rfl
@[simp] theorem State.sendHead_zone (s : State) (h : HeadNum) (x : HeadMsg) (m : Fin 8) :
    (s.sendHead h x).zone m = s.zone m := by unfold State.sendHead; split <;> rfl
@[simp] theorem State.sendHead_vessel (s : State) (h : HeadNum) (x : HeadMsg) (m : Fin 4) :
    (s.sendHead h x).vessel m = s.vessel m := by unfold State.sendHead; split <;> rfl
@[simp] theorem State.sendHead_eventRec (s : State) (h : HeadNum) (x : HeadMsg) (m : EventClass) :
    (s.sendHead h x).eventRec m = s.eventRec m := by unfold State.sendHead; split <;> rfl

/-! ### setSlot -/

@[simp] theorem State.setSlot_pending (s : State) (h : HeadNum) (i : SlotNum) (u : SlotUse) : (s.setSlot h i u).pending = s.pending := by unfold State.setSlot; simp
@[simp] theorem State.setSlot_resetLow (s : State) (h : HeadNum) (i : SlotNum) (u : SlotUse) : (s.setSlot h i u).resetLow = s.resetLow := by unfold State.setSlot; simp
@[simp] theorem State.setSlot_clock (s : State) (h : HeadNum) (i : SlotNum) (u : SlotUse) : (s.setSlot h i u).clock = s.clock := by unfold State.setSlot; simp
@[simp] theorem State.setSlot_contexts (s : State) (h : HeadNum) (i : SlotNum) (u : SlotUse) : (s.setSlot h i u).contexts = s.contexts := by unfold State.setSlot; simp
@[simp] theorem State.setSlot_idMap (s : State) (h : HeadNum) (i : SlotNum) (u : SlotUse) : (s.setSlot h i u).idMap = s.idMap := by unfold State.setSlot; simp
@[simp] theorem State.setSlot_freeList (s : State) (h : HeadNum) (i : SlotNum) (u : SlotUse) : (s.setSlot h i u).freeList = s.freeList := by unfold State.setSlot; simp
@[simp] theorem State.setSlot_craneCount (s : State) (h : HeadNum) (i : SlotNum) (u : SlotUse) : (s.setSlot h i u).craneCount = s.craneCount := by unfold State.setSlot; simp
@[simp] theorem State.setSlot_channels (s : State) (h : HeadNum) (i : SlotNum) (u : SlotUse) : (s.setSlot h i u).channels = s.channels := by unfold State.setSlot; simp
@[simp] theorem State.setSlot_waits (s : State) (h : HeadNum) (i : SlotNum) (u : SlotUse) : (s.setSlot h i u).waits = s.waits := by unfold State.setSlot; simp
@[simp] theorem State.setSlot_heads (s : State) (h : HeadNum) (i : SlotNum) (u : SlotUse) : (s.setSlot h i u).heads = s.heads := by unfold State.setSlot; simp
@[simp] theorem State.setSlot_zones (s : State) (h : HeadNum) (i : SlotNum) (u : SlotUse) : (s.setSlot h i u).zones = s.zones := by unfold State.setSlot; simp
@[simp] theorem State.setSlot_vessels (s : State) (h : HeadNum) (i : SlotNum) (u : SlotUse) : (s.setSlot h i u).vessels = s.vessels := by unfold State.setSlot; simp
@[simp] theorem State.setSlot_dueList (s : State) (h : HeadNum) (i : SlotNum) (u : SlotUse) : (s.setSlot h i u).dueList = s.dueList := by unfold State.setSlot; simp
@[simp] theorem State.setSlot_params (s : State) (h : HeadNum) (i : SlotNum) (u : SlotUse) : (s.setSlot h i u).params = s.params := by unfold State.setSlot; simp
@[simp] theorem State.setSlot_events (s : State) (h : HeadNum) (i : SlotNum) (u : SlotUse) : (s.setSlot h i u).events = s.events := by unfold State.setSlot; simp
@[simp] theorem State.setSlot_controlTx (s : State) (h : HeadNum) (i : SlotNum) (u : SlotUse) : (s.setSlot h i u).controlTx = s.controlTx := by unfold State.setSlot; simp
@[simp] theorem State.setSlot_controlRx (s : State) (h : HeadNum) (i : SlotNum) (u : SlotUse) : (s.setSlot h i u).controlRx = s.controlRx := by unfold State.setSlot; simp
@[simp] theorem State.setSlot_headRx (s : State) (h : HeadNum) (i : SlotNum) (u : SlotUse) : (s.setSlot h i u).headRx = s.headRx := by unfold State.setSlot; simp
@[simp] theorem State.setSlot_controlLine (s : State) (h : HeadNum) (i : SlotNum) (u : SlotUse) : (s.setSlot h i u).controlLine = s.controlLine := by unfold State.setSlot; simp
@[simp] theorem State.setSlot_headLines (s : State) (h : HeadNum) (i : SlotNum) (u : SlotUse) : (s.setSlot h i u).headLines = s.headLines := by unfold State.setSlot; simp
@[simp] theorem State.setSlot_counted (s : State) (h : HeadNum) (i : SlotNum) (u : SlotUse) : (s.setSlot h i u).counted = s.counted := by unfold State.setSlot; simp
@[simp] theorem State.setSlot_openValues (s : State) (h : HeadNum) (i : SlotNum) (u : SlotUse) : (s.setSlot h i u).openValues = s.openValues := by unfold State.setSlot; simp
@[simp] theorem State.setSlot_ctx (s : State) (h : HeadNum) (i : SlotNum) (u : SlotUse) (m : CtxNum) :
    (s.setSlot h i u).ctx m = s.ctx m := by unfold State.setSlot; simp
@[simp] theorem State.setSlot_tag (s : State) (h : HeadNum) (i : SlotNum) (u : SlotUse) (m : CtxNum) :
    (s.setSlot h i u).tag m = s.tag m := by unfold State.setSlot; simp
@[simp] theorem State.setSlot_chan (s : State) (h : HeadNum) (i : SlotNum) (u : SlotUse) (m : ChanNum) :
    (s.setSlot h i u).chan m = s.chan m := by unfold State.setSlot; simp
@[simp] theorem State.setSlot_wait (s : State) (h : HeadNum) (i : SlotNum) (u : SlotUse) (m : CtxNum) :
    (s.setSlot h i u).wait m = s.wait m := by unfold State.setSlot; simp
@[simp] theorem State.setSlot_headRec (s : State) (h : HeadNum) (i : SlotNum) (u : SlotUse) (m : HeadNum) :
    (s.setSlot h i u).headRec m = s.headRec m := by unfold State.setSlot; simp
@[simp] theorem State.setSlot_inService (s : State) (h : HeadNum) (i : SlotNum) (u : SlotUse) (m : HeadNum) :
    (s.setSlot h i u).inService m = s.inService m := by unfold State.setSlot; simp
@[simp] theorem State.setSlot_zone (s : State) (h : HeadNum) (i : SlotNum) (u : SlotUse) (m : Fin 8) :
    (s.setSlot h i u).zone m = s.zone m := by unfold State.setSlot; simp
@[simp] theorem State.setSlot_vessel (s : State) (h : HeadNum) (i : SlotNum) (u : SlotUse) (m : Fin 4) :
    (s.setSlot h i u).vessel m = s.vessel m := by unfold State.setSlot; simp
@[simp] theorem State.setSlot_eventRec (s : State) (h : HeadNum) (i : SlotNum) (u : SlotUse) (m : EventClass) :
    (s.setSlot h i u).eventRec m = s.eventRec m := by unfold State.setSlot; simp

/-! ### setSlots -/

@[simp] theorem State.setSlots_pending (s : State) (h : HeadNum) (l : List SlotNum) (u : SlotUse) : (s.setSlots h l u).pending = s.pending := by
  induction l generalizing s with
  | nil => rfl
  | cons i l ih => exact (ih _).trans (State.setSlot_pending ..)
@[simp] theorem State.setSlots_resetLow (s : State) (h : HeadNum) (l : List SlotNum) (u : SlotUse) : (s.setSlots h l u).resetLow = s.resetLow := by
  induction l generalizing s with
  | nil => rfl
  | cons i l ih => exact (ih _).trans (State.setSlot_resetLow ..)
@[simp] theorem State.setSlots_clock (s : State) (h : HeadNum) (l : List SlotNum) (u : SlotUse) : (s.setSlots h l u).clock = s.clock := by
  induction l generalizing s with
  | nil => rfl
  | cons i l ih => exact (ih _).trans (State.setSlot_clock ..)
@[simp] theorem State.setSlots_contexts (s : State) (h : HeadNum) (l : List SlotNum) (u : SlotUse) : (s.setSlots h l u).contexts = s.contexts := by
  induction l generalizing s with
  | nil => rfl
  | cons i l ih => exact (ih _).trans (State.setSlot_contexts ..)
@[simp] theorem State.setSlots_idMap (s : State) (h : HeadNum) (l : List SlotNum) (u : SlotUse) : (s.setSlots h l u).idMap = s.idMap := by
  induction l generalizing s with
  | nil => rfl
  | cons i l ih => exact (ih _).trans (State.setSlot_idMap ..)
@[simp] theorem State.setSlots_freeList (s : State) (h : HeadNum) (l : List SlotNum) (u : SlotUse) : (s.setSlots h l u).freeList = s.freeList := by
  induction l generalizing s with
  | nil => rfl
  | cons i l ih => exact (ih _).trans (State.setSlot_freeList ..)
@[simp] theorem State.setSlots_craneCount (s : State) (h : HeadNum) (l : List SlotNum) (u : SlotUse) : (s.setSlots h l u).craneCount = s.craneCount := by
  induction l generalizing s with
  | nil => rfl
  | cons i l ih => exact (ih _).trans (State.setSlot_craneCount ..)
@[simp] theorem State.setSlots_channels (s : State) (h : HeadNum) (l : List SlotNum) (u : SlotUse) : (s.setSlots h l u).channels = s.channels := by
  induction l generalizing s with
  | nil => rfl
  | cons i l ih => exact (ih _).trans (State.setSlot_channels ..)
@[simp] theorem State.setSlots_waits (s : State) (h : HeadNum) (l : List SlotNum) (u : SlotUse) : (s.setSlots h l u).waits = s.waits := by
  induction l generalizing s with
  | nil => rfl
  | cons i l ih => exact (ih _).trans (State.setSlot_waits ..)
@[simp] theorem State.setSlots_heads (s : State) (h : HeadNum) (l : List SlotNum) (u : SlotUse) : (s.setSlots h l u).heads = s.heads := by
  induction l generalizing s with
  | nil => rfl
  | cons i l ih => exact (ih _).trans (State.setSlot_heads ..)
@[simp] theorem State.setSlots_zones (s : State) (h : HeadNum) (l : List SlotNum) (u : SlotUse) : (s.setSlots h l u).zones = s.zones := by
  induction l generalizing s with
  | nil => rfl
  | cons i l ih => exact (ih _).trans (State.setSlot_zones ..)
@[simp] theorem State.setSlots_vessels (s : State) (h : HeadNum) (l : List SlotNum) (u : SlotUse) : (s.setSlots h l u).vessels = s.vessels := by
  induction l generalizing s with
  | nil => rfl
  | cons i l ih => exact (ih _).trans (State.setSlot_vessels ..)
@[simp] theorem State.setSlots_dueList (s : State) (h : HeadNum) (l : List SlotNum) (u : SlotUse) : (s.setSlots h l u).dueList = s.dueList := by
  induction l generalizing s with
  | nil => rfl
  | cons i l ih => exact (ih _).trans (State.setSlot_dueList ..)
@[simp] theorem State.setSlots_params (s : State) (h : HeadNum) (l : List SlotNum) (u : SlotUse) : (s.setSlots h l u).params = s.params := by
  induction l generalizing s with
  | nil => rfl
  | cons i l ih => exact (ih _).trans (State.setSlot_params ..)
@[simp] theorem State.setSlots_events (s : State) (h : HeadNum) (l : List SlotNum) (u : SlotUse) : (s.setSlots h l u).events = s.events := by
  induction l generalizing s with
  | nil => rfl
  | cons i l ih => exact (ih _).trans (State.setSlot_events ..)
@[simp] theorem State.setSlots_controlTx (s : State) (h : HeadNum) (l : List SlotNum) (u : SlotUse) : (s.setSlots h l u).controlTx = s.controlTx := by
  induction l generalizing s with
  | nil => rfl
  | cons i l ih => exact (ih _).trans (State.setSlot_controlTx ..)
@[simp] theorem State.setSlots_controlRx (s : State) (h : HeadNum) (l : List SlotNum) (u : SlotUse) : (s.setSlots h l u).controlRx = s.controlRx := by
  induction l generalizing s with
  | nil => rfl
  | cons i l ih => exact (ih _).trans (State.setSlot_controlRx ..)
@[simp] theorem State.setSlots_headRx (s : State) (h : HeadNum) (l : List SlotNum) (u : SlotUse) : (s.setSlots h l u).headRx = s.headRx := by
  induction l generalizing s with
  | nil => rfl
  | cons i l ih => exact (ih _).trans (State.setSlot_headRx ..)
@[simp] theorem State.setSlots_controlLine (s : State) (h : HeadNum) (l : List SlotNum) (u : SlotUse) : (s.setSlots h l u).controlLine = s.controlLine := by
  induction l generalizing s with
  | nil => rfl
  | cons i l ih => exact (ih _).trans (State.setSlot_controlLine ..)
@[simp] theorem State.setSlots_headLines (s : State) (h : HeadNum) (l : List SlotNum) (u : SlotUse) : (s.setSlots h l u).headLines = s.headLines := by
  induction l generalizing s with
  | nil => rfl
  | cons i l ih => exact (ih _).trans (State.setSlot_headLines ..)
@[simp] theorem State.setSlots_counted (s : State) (h : HeadNum) (l : List SlotNum) (u : SlotUse) : (s.setSlots h l u).counted = s.counted := by
  induction l generalizing s with
  | nil => rfl
  | cons i l ih => exact (ih _).trans (State.setSlot_counted ..)
@[simp] theorem State.setSlots_openValues (s : State) (h : HeadNum) (l : List SlotNum) (u : SlotUse) : (s.setSlots h l u).openValues = s.openValues := by
  induction l generalizing s with
  | nil => rfl
  | cons i l ih => exact (ih _).trans (State.setSlot_openValues ..)
@[simp] theorem State.setSlots_ctx (s : State) (h : HeadNum) (l : List SlotNum) (u : SlotUse) (m : CtxNum) :
    (s.setSlots h l u).ctx m = s.ctx m := by
  induction l generalizing s with
  | nil => rfl
  | cons i l ih => exact (ih _).trans (State.setSlot_ctx ..)
@[simp] theorem State.setSlots_tag (s : State) (h : HeadNum) (l : List SlotNum) (u : SlotUse) (m : CtxNum) :
    (s.setSlots h l u).tag m = s.tag m := by
  induction l generalizing s with
  | nil => rfl
  | cons i l ih => exact (ih _).trans (State.setSlot_tag ..)
@[simp] theorem State.setSlots_chan (s : State) (h : HeadNum) (l : List SlotNum) (u : SlotUse) (m : ChanNum) :
    (s.setSlots h l u).chan m = s.chan m := by
  induction l generalizing s with
  | nil => rfl
  | cons i l ih => exact (ih _).trans (State.setSlot_chan ..)
@[simp] theorem State.setSlots_wait (s : State) (h : HeadNum) (l : List SlotNum) (u : SlotUse) (m : CtxNum) :
    (s.setSlots h l u).wait m = s.wait m := by
  induction l generalizing s with
  | nil => rfl
  | cons i l ih => exact (ih _).trans (State.setSlot_wait ..)
@[simp] theorem State.setSlots_headRec (s : State) (h : HeadNum) (l : List SlotNum) (u : SlotUse) (m : HeadNum) :
    (s.setSlots h l u).headRec m = s.headRec m := by
  induction l generalizing s with
  | nil => rfl
  | cons i l ih => exact (ih _).trans (State.setSlot_headRec ..)
@[simp] theorem State.setSlots_inService (s : State) (h : HeadNum) (l : List SlotNum) (u : SlotUse) (m : HeadNum) :
    (s.setSlots h l u).inService m = s.inService m := by
  induction l generalizing s with
  | nil => rfl
  | cons i l ih => exact (ih _).trans (State.setSlot_inService ..)
@[simp] theorem State.setSlots_zone (s : State) (h : HeadNum) (l : List SlotNum) (u : SlotUse) (m : Fin 8) :
    (s.setSlots h l u).zone m = s.zone m := by
  induction l generalizing s with
  | nil => rfl
  | cons i l ih => exact (ih _).trans (State.setSlot_zone ..)
@[simp] theorem State.setSlots_vessel (s : State) (h : HeadNum) (l : List SlotNum) (u : SlotUse) (m : Fin 4) :
    (s.setSlots h l u).vessel m = s.vessel m := by
  induction l generalizing s with
  | nil => rfl
  | cons i l ih => exact (ih _).trans (State.setSlot_vessel ..)
@[simp] theorem State.setSlots_eventRec (s : State) (h : HeadNum) (l : List SlotNum) (u : SlotUse) (m : EventClass) :
    (s.setSlots h l u).eventRec m = s.eventRec m := by
  induction l generalizing s with
  | nil => rfl
  | cons i l ih => exact (ih _).trans (State.setSlot_eventRec ..)

/-! ### handOn -/

@[simp] theorem State.handOn_pending (s : State) (n : CtxNum) : (s.handOn n).pending = s.pending := by unfold State.handOn; split <;> rfl
@[simp] theorem State.handOn_resetLow (s : State) (n : CtxNum) : (s.handOn n).resetLow = s.resetLow := by unfold State.handOn; split <;> rfl
@[simp] theorem State.handOn_clock (s : State) (n : CtxNum) : (s.handOn n).clock = s.clock := by unfold State.handOn; split <;> rfl
@[simp] theorem State.handOn_idMap (s : State) (n : CtxNum) : (s.handOn n).idMap = s.idMap := by unfold State.handOn; split <;> rfl
@[simp] theorem State.handOn_freeList (s : State) (n : CtxNum) : (s.handOn n).freeList = s.freeList := by unfold State.handOn; split <;> rfl
@[simp] theorem State.handOn_craneCount (s : State) (n : CtxNum) : (s.handOn n).craneCount = s.craneCount := by unfold State.handOn; split <;> rfl
@[simp] theorem State.handOn_heads (s : State) (n : CtxNum) : (s.handOn n).heads = s.heads := by unfold State.handOn; split <;> rfl
@[simp] theorem State.handOn_plans (s : State) (n : CtxNum) : (s.handOn n).plans = s.plans := by unfold State.handOn; split <;> rfl
@[simp] theorem State.handOn_zones (s : State) (n : CtxNum) : (s.handOn n).zones = s.zones := by unfold State.handOn; split <;> rfl
@[simp] theorem State.handOn_vessels (s : State) (n : CtxNum) : (s.handOn n).vessels = s.vessels := by unfold State.handOn; split <;> rfl
@[simp] theorem State.handOn_dueList (s : State) (n : CtxNum) : (s.handOn n).dueList = s.dueList := by unfold State.handOn; split <;> rfl
@[simp] theorem State.handOn_params (s : State) (n : CtxNum) : (s.handOn n).params = s.params := by unfold State.handOn; split <;> rfl
@[simp] theorem State.handOn_events (s : State) (n : CtxNum) : (s.handOn n).events = s.events := by unfold State.handOn; split <;> rfl
@[simp] theorem State.handOn_headTx (s : State) (n : CtxNum) : (s.handOn n).headTx = s.headTx := by unfold State.handOn; split <;> rfl
@[simp] theorem State.handOn_controlRx (s : State) (n : CtxNum) : (s.handOn n).controlRx = s.controlRx := by unfold State.handOn; split <;> rfl
@[simp] theorem State.handOn_headRx (s : State) (n : CtxNum) : (s.handOn n).headRx = s.headRx := by unfold State.handOn; split <;> rfl
@[simp] theorem State.handOn_controlLine (s : State) (n : CtxNum) : (s.handOn n).controlLine = s.controlLine := by unfold State.handOn; split <;> rfl
@[simp] theorem State.handOn_headLines (s : State) (n : CtxNum) : (s.handOn n).headLines = s.headLines := by unfold State.handOn; split <;> rfl
@[simp] theorem State.handOn_counted (s : State) (n : CtxNum) : (s.handOn n).counted = s.counted := by unfold State.handOn; split <;> rfl
@[simp] theorem State.handOn_openValues (s : State) (n : CtxNum) : (s.handOn n).openValues = s.openValues := by unfold State.handOn; split <;> rfl
@[simp] theorem State.handOn_headRec (s : State) (n : CtxNum) (m : HeadNum) :
    (s.handOn n).headRec m = s.headRec m := by unfold State.handOn; split <;> rfl
@[simp] theorem State.handOn_inService (s : State) (n : CtxNum) (m : HeadNum) :
    (s.handOn n).inService m = s.inService m := by unfold State.handOn; split <;> rfl
@[simp] theorem State.handOn_plan (s : State) (n : CtxNum) (m : HeadNum) :
    (s.handOn n).plan m = s.plan m := by unfold State.handOn; split <;> rfl
@[simp] theorem State.handOn_freeCount (s : State) (n : CtxNum) (m : HeadNum) :
    (s.handOn n).freeCount m = s.freeCount m := by unfold State.handOn; split <;> rfl
@[simp] theorem State.handOn_zone (s : State) (n : CtxNum) (m : Fin 8) :
    (s.handOn n).zone m = s.zone m := by unfold State.handOn; split <;> rfl
@[simp] theorem State.handOn_vessel (s : State) (n : CtxNum) (m : Fin 4) :
    (s.handOn n).vessel m = s.vessel m := by unfold State.handOn; split <;> rfl
@[simp] theorem State.handOn_eventRec (s : State) (n : CtxNum) (m : EventClass) :
    (s.handOn n).eventRec m = s.eventRec m := by unfold State.handOn; split <;> rfl

/-! ### Reading what was written -/

theorem State.setCtx_ctx (s : State) (n : CtxNum) (c : Context) (m : CtxNum) :
    (s.setCtx n c).ctx m = if n = m then c else s.ctx m := by
  simp only [State.ctx, State.setCtx_contexts, Fin.getElem_fin, Vector.getElem_set, Fin.ext_iff]

@[simp] theorem State.setCtx_ctx_self (s : State) (n : CtxNum) (c : Context) : (s.setCtx n c).ctx n = c := by
  simp [State.setCtx_ctx]

theorem State.setCtx_ctx_of_ne (s : State) {n m : CtxNum} (c : Context) (hne : n ≠ m) :
    (s.setCtx n c).ctx m = s.ctx m := by
  simp [State.setCtx_ctx, hne]

theorem State.setChan_chan (s : State) (ch : ChanNum) (c : Channel) (m : ChanNum) :
    (s.setChan ch c).chan m = if ch = m then c else s.chan m := by
  simp only [State.chan, State.setChan_channels, Fin.getElem_fin, Vector.getElem_set, Fin.ext_iff]

@[simp] theorem State.setChan_chan_self (s : State) (ch : ChanNum) (c : Channel) : (s.setChan ch c).chan ch = c := by
  simp [State.setChan_chan]

theorem State.setWait_wait (s : State) (n : CtxNum) (l : List ChanNum) (m : CtxNum) :
    (s.setWait n l).wait m = if n = m then l else s.wait m := by
  simp only [State.wait, State.setWait_waits, Fin.getElem_fin, Vector.getElem_set, Fin.ext_iff]

@[simp] theorem State.setWait_wait_self (s : State) (n : CtxNum) (l : List ChanNum) : (s.setWait n l).wait n = l := by
  simp [State.setWait_wait]

theorem State.setHead_headRec (s : State) (h : HeadNum) (r : Head) (m : HeadNum) :
    (s.setHead h r).headRec m = if h = m then r else s.headRec m := by
  simp only [State.headRec, State.setHead_heads, Fin.getElem_fin, Vector.getElem_set, Fin.ext_iff]

@[simp] theorem State.setHead_headRec_self (s : State) (h : HeadNum) (r : Head) : (s.setHead h r).headRec h = r := by
  simp [State.setHead_headRec]

theorem State.setPlan_plan (s : State) (h : HeadNum) (p : Plan) (m : HeadNum) :
    (s.setPlan h p).plan m = if h = m then p else s.plan m := by
  simp only [State.plan, State.setPlan_plans, Fin.getElem_fin, Vector.getElem_set, Fin.ext_iff]

@[simp] theorem State.setPlan_plan_self (s : State) (h : HeadNum) (p : Plan) : (s.setPlan h p).plan h = p := by
  simp [State.setPlan_plan]

theorem State.setZone_zone (s : State) (w : Fin 8) (z : ZoneWindow) (m : Fin 8) :
    (s.setZone w z).zone m = if w = m then z else s.zone m := by
  simp only [State.zone, State.setZone_zones, Fin.getElem_fin, Vector.getElem_set, Fin.ext_iff]

theorem State.setVessel_vessel (s : State) (w : Fin 4) (v : VesselWindow) (m : Fin 4) :
    (s.setVessel w v).vessel m = if w = m then v else s.vessel m := by
  simp only [State.vessel, State.setVessel_vessels, Fin.getElem_fin, Vector.getElem_set, Fin.ext_iff]

/-- The record of a class is the only one with its number (R165). -/
theorem EventClass.num_inj {c d : EventClass} : c.num = d.num ↔ c = d := by
  cases c <;> cases d <;> decide

theorem State.setEvent_eventRec (s : State) (c : EventClass) (r : EventRec) (d : EventClass) :
    (s.setEvent c r).eventRec d = if c = d then r else s.eventRec d := by
  simp only [State.eventRec, State.setEvent_events, Fin.getElem_fin, Vector.getElem_set, ← Fin.ext_iff,
    EventClass.num_inj]

theorem State.raise_eventRec (s : State) (c : EventClass) (x : Subject) (d : EventClass) :
    (s.raise c x).eventRec d =
      if c = d then { s.eventRec c with pending := true, subject := some x } else s.eventRec d := by
  simp only [State.raise, State.setEvent_eventRec]

theorem State.setChanState_chan (s : State) (ch : ChanNum) (st : ChanState) (m : ChanNum) :
    (s.setChanState ch st).chan m = if ch = m then { s.chan ch with state := st } else s.chan m := by
  simp only [State.setChanState, State.setChan_chan]

@[simp] theorem State.finish_controlTx (s : State) (ch : ChanNum) (echo : Byte) (r : Reply) :
    (s.finish ch echo r).controlTx = s.controlTx ++ [⟨ch, echo, r⟩] := rfl

/-! ### Two writes of one record -/

@[simp] theorem State.setCtx_setCtx (s : State) (n : CtxNum) (c d : Context) :
    (s.setCtx n c).setCtx n d = s.setCtx n d := by
  simp [State.setCtx]

@[simp] theorem State.setChan_setChan (s : State) (ch : ChanNum) (c d : Channel) :
    (s.setChan ch c).setChan ch d = s.setChan ch d := by
  simp [State.setChan]

@[simp] theorem State.setHead_setHead (s : State) (h : HeadNum) (r q : Head) :
    (s.setHead h r).setHead h q = s.setHead h q := by
  simp [State.setHead]

/-- Writing back the record that stands changes nothing. -/
@[simp] theorem State.setChan_chan_eq (s : State) (ch : ChanNum) : s.setChan ch (s.chan ch) = s := by
  simp [State.setChan, State.chan]

@[simp] theorem State.setCtx_ctx_eq (s : State) (n : CtxNum) : s.setCtx n (s.ctx n) = s := by
  simp [State.setCtx, State.ctx]

@[simp] theorem State.setHead_headRec_eq (s : State) (h : HeadNum) : s.setHead h (s.headRec h) = s := by
  simp [State.setHead, State.headRec]

/-- An answer and the write of a channel record may change places. -/
theorem State.answer_setChan (s : State) (ch : ChanNum) (echo : Byte) (r : Reply) (m : ChanNum) (c : Channel) :
    (s.answer ch echo r).setChan m c = (s.setChan m c).answer ch echo r := rfl

end Sys2Proof.Machine
end

