-- ==== Sys2Proof/Laws/Ops.lean ====
section
/-! SUPPORT. What each shared operation can do, said once: a proof about a command cites these lemmas and does not unfold
the operations. -/

namespace Sys2Proof.Machine

open Sys2Proof

/-! ## Deadlines and clamps -/

theorem clamp_bounds {lo hi : Nat} (hle : lo ≤ hi) (x : Nat) : lo ≤ clamp lo hi x ∧ clamp lo hi x ≤ hi := by
  unfold clamp; omega

theorem clampInt_bounds {lo hi : Int} (hle : lo ≤ hi) (x : Int) : lo ≤ clampInt lo hi x ∧ clampInt lo hi x ≤ hi := by
  unfold clampInt; omega

theorem clamp_eq_self {lo hi x : Nat} (h1 : lo ≤ x) (h2 : x ≤ hi) : clamp lo hi x = x := by
  unfold clamp; omega

@[simp] theorem expired_none (now : Time) : expired now none = false := rfl

@[simp] theorem expired_some (now d : Time) : expired now (some d) = reached now d := rfl

theorem expired_iff (now : Time) (o : Option Time) : expired now o = true ↔ ∃ d, o = some d ∧ reached now d = true := by
  cases o <;> simp

/-- A deadline set at the present moment, no time ahead, is reached (R169). -/
theorem reached_self (t : Time) : reached t t = true := by simp [reached]

/-! ## Tags (R7, R8) -/

theorem tagOf_toNat (gen : BitVec 5) (n : CtxNum) : (tagOf gen n).toNat = gen.toNat * 2048 + n.val := by
  have hg := gen.isLt
  have hn := n.isLt
  unfold tagOf
  rw [BitVec.toNat_ofNat]
  omega

@[simp] theorem tagNumber_tagOf (gen : BitVec 5) (n : CtxNum) : tagNumber (tagOf gen n) = n := by
  have hn := n.isLt
  apply Fin.ext
  simp only [tagNumber, tagOf_toNat]
  omega

/-- A tag resolves only to the number in its low bits. -/
theorem State.resolve_number {s : State} {tag : Half} {n : CtxNum} (h : s.resolve tag = some n) : n = tagNumber tag := by
  unfold State.resolve at h
  split at h
  · exact (Option.some.inj h).symm
  · cases h

/-- A resolved context is in use. -/
theorem State.resolve_used {s : State} {tag : Half} {n : CtxNum} (h : s.resolve tag = some n) :
    (s.ctx n).state ≠ .free := by
  have hn := State.resolve_number h
  unfold State.resolve at h
  split at h
  · rename_i hc; rw [hn]; exact hc.1
  · cases h

/-! ## Parameters (R163) -/

@[simp] theorem PerClass.get_put (p : PerClass) (c d : TermClass) (v : Nat) :
    (p.put c v).get d = if c = d then v else p.get d := by
  cases c <;> cases d <;> rfl

@[simp] theorem PerClass.of_some (p : PerClass) (c : TermClass) : p.of (some c) = p.get c := rfl

theorem Params.get_put (p : Params) (sel other : ParamSel) (v : Nat) :
    (p.put sel v).get other = if sel = other then v else p.get other := by
  rcases sel with ⟨a, c⟩ | a <;> rcases other with ⟨b, d⟩ | b <;> cases a <;> cases b <;>
    simp [Params.put, Params.get]

/-! ## Taking a command (R159, R160, R170) -/

theorem State.whileRunning_low {s : State} (h : s.resetLow = true) (f : State → State) : s.whileRunning f = s := by
  simp [State.whileRunning, h]

theorem State.whileRunning_high {s : State} (h : s.resetLow = false) (f : State → State) : s.whileRunning f = f s := by
  simp [State.whileRunning, h]

/-- A request whose owner changes no channel record: the channel was IDLE and is IDLE again, so only the answer and the
owner's own changes are left. -/
theorem State.finish_of_busy {s t : State} {ch : ChanNum} (idle : (s.chan ch).state = .idle)
    (same : t.channels = (s.setChanState ch .busy).channels) (echo : Byte) (r : Reply) :
    t.finish ch echo r = { t with channels := s.channels }.answer ch echo r := by
  have hchan : t.chan ch = { s.chan ch with state := .busy } := by
    rw [State.chan, same]; simp [State.setChanState, State.setChan]
  have hback : ({ s.chan ch with state := .idle } : Channel) = s.chan ch := by rw [← idle]
  have h1 : (t.answer ch echo r).chan ch = t.chan ch := rfl
  have h2 : t.channels.set ch (s.chan ch) = s.channels := by
    rw [same]; simp [State.setChanState, State.setChan, State.chan]
  unfold State.finish State.setChanState
  rw [h1, hchan]
  show (t.answer ch echo r).setChan ch { s.chan ch with state := .idle } = _
  rw [hback]
  show { t.answer ch echo r with channels := t.channels.set ch (s.chan ch) } = _
  rw [h2]
  rfl

/-- A request that is answered at once with no other change. -/
theorem State.busy_finish {s : State} {ch : ChanNum} (idle : (s.chan ch).state = .idle) (echo : Byte) (r : Reply) :
    (s.setChanState ch .busy).finish ch echo r = s.answer ch echo r := by
  rw [State.finish_of_busy idle rfl]; rfl

/-- Everything `takeRequest` can do. -/
theorem State.takeRequest_cases {α : Type} (s : State) (ch : ChanNum) (code : Byte) (b : Body α)
    (run : α → State → State) :
    s.takeRequest ch code b run =
      if s.resetLow then s
      else if (s.chan ch).state = .idle then
        match b with
        | .badForm => s.answer ch code .badField
        | .fields f => run f (s.setChanState ch .busy)
      else s.answer ch code .channelBusy := by
  unfold State.takeRequest State.whileRunning
  split
  · rfl
  · dsimp only
    cases hst : (s.chan ch).state
    · cases b
      · simp
      · simp [State.busy_finish hst]
    all_goals simp

theorem State.takeRequest_ready {α : Type} {s : State} {ch : ChanNum} (h : s.Ready ch) (code : Byte) (f : α)
    (run : α → State → State) : s.takeRequest ch code (.fields f) run = run f (s.setChanState ch .busy) := by
  rw [State.takeRequest_cases]; simp [h.1, h.2]

/-- Everything `takeOnSweeping` can do. -/
theorem State.takeOnSweeping_cases (s : State) (ch : ChanNum) (code : Byte) (b : Body Unit) (f : State → State) :
    s.takeOnSweeping ch code b f =
      if s.resetLow then s
      else
        match (s.chan ch).state, b with
        | .idle, .badForm => s.answer ch code .badField
        | .idle, .fields _ => s.answer ch code .state
        | .sweeping, .badForm => s.answer ch code .badField
        | .sweeping, .fields _ => f s
        | .busy, _ | .parked, _ => s.answer ch code .channelBusy := by
  unfold State.takeOnSweeping State.whileRunning
  split
  · rfl
  · dsimp only
    cases hst : (s.chan ch).state
    · cases b <;> simp [State.busy_finish hst]
    all_goals cases b <;> simp

/-! ## Head messages (R46) -/

/-- Everything `sendHead` can do. -/
theorem State.sendHead_headTx (s : State) (h : HeadNum) (x : HeadMsg) :
    (s.sendHead h x).headTx =
      if x.allowedIn (s.headRec h).link then s.headTx.set h (s.headTx[h] ++ [x]) else s.headTx := by
  unfold State.sendHead; split <;> rfl

theorem HeadMsg.allowedIn_inService (x : HeadMsg) : x.allowedIn .inService = true := by cases x <;> rfl

/-! ## Slots (R128 to R130) -/

theorem Plan.mem_freeSlots (p : Plan) (i : SlotNum) : i ∈ p.freeSlots ↔ p[i] = .free := by
  simp [Plan.freeSlots]

theorem Plan.mem_slotsWith (p : Plan) (u : SlotUse) (i : SlotNum) : i ∈ p.slotsWith u ↔ p[i] = u := by
  simp [Plan.slotsWith]

theorem Plan.nodup_freeSlots (p : Plan) : p.freeSlots.Nodup := (List.nodup_finRange 32).filter _

theorem Plan.nodup_slotsWith (p : Plan) (u : SlotUse) : (p.slotsWith u).Nodup := (List.nodup_finRange 32).filter _

/-- The free slots stand in ascending order (R129). -/
theorem Plan.freeSlots_ascending (p : Plan) : p.freeSlots.Pairwise (· < ·) :=
  List.Pairwise.filter _ (List.pairwise_lt_finRange 32)

theorem Plan.slotsWith_ascending (p : Plan) (u : SlotUse) : (p.slotsWith u).Pairwise (· < ·) :=
  List.Pairwise.filter _ (List.pairwise_lt_finRange 32)

theorem State.mem_lowestFree {s : State} {h : HeadNum} {count : Nat} {i : SlotNum} (hi : i ∈ s.lowestFree h count) :
    (s.plan h)[i] = .free :=
  (Plan.mem_freeSlots _ _).1 (List.mem_of_mem_take hi)

/-- A reservation is never short when enough slots are free (R129). -/
theorem State.length_lowestFree {s : State} {h : HeadNum} {count : Nat} (enough : count ≤ s.freeCount h) :
    (s.lowestFree h count).length = count := by
  rw [State.lowestFree, List.length_take]
  exact Nat.min_eq_left enough

@[simp] theorem State.setSlot_plan (s : State) (h : HeadNum) (i : SlotNum) (u : SlotUse) (m : HeadNum) :
    (s.setSlot h i u).plan m = if h = m then (s.plan h).set i u else s.plan m := by
  simp [State.setSlot, State.setPlan_plan]

/-- Everything `setSlots` does to the plans: the slots of the list take the new use, every other slot stands. -/
theorem State.setSlots_slot (s : State) (h : HeadNum) (l : List SlotNum) (u : SlotUse) (m : HeadNum) (j : SlotNum) :
    ((s.setSlots h l u).plan m)[j] = if m = h ∧ j ∈ l then u else (s.plan m)[j] := by
  induction l generalizing s with
  | nil => simp [State.setSlots]
  | cons i l ih =>
    have hcons : s.setSlots h (i :: l) u = (s.setSlot h i u).setSlots h l u := rfl
    rw [hcons, ih]
    by_cases hm : m = h
    · subst hm
      by_cases hj : j ∈ l
      · simp [hj]
      · by_cases hij : i = j
        · subst hij; simp [hj]
        · have hne : (i : Nat) ≠ j := fun hh => hij (Fin.ext hh)
          have hji : j ≠ i := fun hh => hij hh.symm
          simp [hj, hji, hne]
    · have hm' : ¬ h = m := fun hh => hm hh.symm
      simp [hm, hm']

@[simp] theorem State.planEntry_setSlot (s : State) (h : HeadNum) (i : SlotNum) (v u : SlotUse) :
    (s.setSlot h i v).planEntry u = s.planEntry u := by
  cases u <;> simp [State.planEntry]

/-- Everything `setSlots` sends: on a head in service one PLAN message for each slot of the list, in its order, on that
head's link alone (R130); on any other head nothing. -/
theorem State.setSlots_headTx (s : State) (h : HeadNum) (l : List SlotNum) (u : SlotUse) :
    (s.setSlots h l u).headTx =
      if s.inService h then s.headTx.set h (s.headTx[h] ++ l.map fun i => .plan i (s.planEntry u)) else s.headTx := by
  induction l generalizing s with
  | nil => simp [State.setSlots]
  | cons i l ih =>
    have hcons : s.setSlots h (i :: l) u = (s.setSlot h i u).setSlots h l u := rfl
    have hsend : (s.setSlot h i u).headTx =
        if s.inService h then s.headTx.set h (s.headTx[h] ++ [.plan i (s.planEntry u)]) else s.headTx := by
      unfold State.setSlot
      rw [State.sendHead_headTx]
      cases hl : (s.headRec h).link <;> simp [State.inService, hl, HeadMsg.allowedIn]
    rw [hcons, ih]
    by_cases hs : s.inService h = true
    · simp [hs, hsend]
    · simp [hs, hsend]

theorem State.setSlots_plans (s : State) (h : HeadNum) (l : List SlotNum) (u : SlotUse) :
    (s.setSlots h l u).plans = s.plans.set h ((s.plan h).fill l u) := by
  apply Vector.ext; intro i hi
  have hplan : (s.setSlots h l u).plan ⟨i, hi⟩ =
      if (⟨i, hi⟩ : HeadNum) = h then (s.plan h).fill l u else s.plan ⟨i, hi⟩ := by
    apply Vector.ext; intro j hj
    have hslot := State.setSlots_slot s h l u ⟨i, hi⟩ ⟨j, hj⟩
    simp only [Fin.getElem_fin] at hslot
    rw [hslot]
    by_cases hh : (⟨i, hi⟩ : HeadNum) = h
    · simp [hh, Plan.fill]
    · simp [hh]
  show (s.setSlots h l u).plan ⟨i, hi⟩ = _
  rw [hplan, Vector.getElem_set]
  by_cases hh : (⟨i, hi⟩ : HeadNum) = h
  · subst hh; simp
  · have : ¬ (h : Nat) = i := fun e => hh (Fin.ext e.symm)
    simp [hh, this, State.plan]

/-- Everything `setSlots` does on a head in service: the plan and the messages of R130, and nothing else. -/
theorem State.setSlots_eq {s : State} {h : HeadNum} (hs : s.inService h = true) (l : List SlotNum) (u : SlotUse) :
    s.setSlots h l u =
      { s with plans := s.plans.set h ((s.plan h).fill l u)
               headTx := queueOn s.headTx h (planMessages l (s.planEntry u)) } := by
  apply State.ext <;> simp [State.setSlots_plans, State.setSlots_headTx, hs, queueOn, planMessages]

/-! ## The identity map (R9) -/

theorem mem_of_lookupId {m : List (Identity × CtxNum)} {id : Identity} {n : CtxNum} (h : lookupId m id = some n) :
    (id, n) ∈ m := by
  unfold lookupId at h
  cases hf : m.find? fun e => e.1 = id with
  | none => simp [hf] at h
  | some e =>
    have h1 := List.mem_of_find?_eq_some hf
    have h2 := List.find?_some hf
    simp [hf] at h
    simp at h2
    rw [← h2, ← h]; exact h1

theorem lookupId_none {m : List (Identity × CtxNum)} {id : Identity} (h : lookupId m id = none) (n : CtxNum) :
    (id, n) ∉ m := by
  intro hmem
  unfold lookupId at h
  have := List.find?_eq_none.1 (Option.map_eq_none_iff.1 h) _ hmem
  simp at this

/-- Everything `insertId` puts into the map. -/
theorem mem_insertId (id : Identity) (n : CtxNum) (m : List (Identity × CtxNum)) (e : Identity × CtxNum) :
    e ∈ insertId id n m ↔ e = (id, n) ∨ e ∈ m := by
  induction m with
  | nil => simp [insertId]
  | cons a m ih =>
    unfold insertId
    split
    · simp
    · simp only [List.mem_cons, ih]; exact or_left_comm

/-- The map stays in rising order of identity. -/
theorem pairwise_insertId {id : Identity} (n : CtxNum) {m : List (Identity × CtxNum)}
    (fresh : ∀ e ∈ m, e.1 ≠ id) (h : m.Pairwise fun x y => x.1.toNat < y.1.toNat) :
    (insertId id n m).Pairwise fun x y => x.1.toNat < y.1.toNat := by
  induction m with
  | nil => simp [insertId]
  | cons a m ih =>
    rw [List.pairwise_cons] at h
    unfold insertId
    split
    · rename_i hlt
      rw [List.pairwise_cons, List.pairwise_cons]
      refine ⟨fun e he => ?_, h⟩
      rcases List.mem_cons.1 he with rfl | he
      · exact hlt
      · exact Nat.lt_trans hlt (h.1 e he)
    · rename_i hge
      rw [List.pairwise_cons]
      refine ⟨fun e he => ?_, ih (fun e he => fresh e (List.mem_cons_of_mem _ he)) h.2⟩
      rcases (mem_insertId id n m e).1 he with rfl | he
      · have hne : a.1 ≠ id := fresh a (List.mem_cons_self ..)
        have : a.1.toNat ≠ id.toNat := fun hh => hne (BitVec.eq_of_toNat_eq hh)
        show a.1.toNat < id.toNat
        omega
      · exact h.1 e he

theorem mem_eraseId (m : List (Identity × CtxNum)) (id : Identity) (e : Identity × CtxNum) :
    e ∈ eraseId m id ↔ e ∈ m ∧ e.1 ≠ id := by
  simp [eraseId]

/-! ## The due list (R150) -/

theorem mem_insertDue (before : CtxNum → CtxNum → Bool) (n m : CtxNum) (l : List CtxNum) :
    m ∈ insertDue before n l ↔ m = n ∨ m ∈ l := by
  induction l with
  | nil => simp [insertDue]
  | cons a l ih =>
    unfold insertDue
    split
    · simp
    · simp only [List.mem_cons, ih]; exact or_left_comm

theorem nodup_insertDue (before : CtxNum → CtxNum → Bool) {n : CtxNum} {l : List CtxNum} (fresh : n ∉ l)
    (h : l.Nodup) : (insertDue before n l).Nodup := by
  induction l with
  | nil => simp [insertDue]
  | cons a l ih =>
    rw [List.nodup_cons] at h
    rw [List.mem_cons, not_or] at fresh
    unfold insertDue
    split
    · simp only [List.nodup_cons, List.mem_cons, not_or]
      exact ⟨fresh, h⟩
    · rw [List.nodup_cons, mem_insertDue, not_or]
      exact ⟨⟨fun hh => fresh.1 hh.symm, h.1⟩, ih fresh.2 h.2⟩

/-! ## Holds (R30 to R35) -/

@[simp] theorem State.grantHold_ctx (s : State) (n : CtxNum) (ch : ChanNum) (m : CtxNum) :
    (s.grantHold n ch).ctx m = if n = m then { s.ctx n with holder := some ch } else s.ctx m := by
  simp [State.grantHold, State.setCtx_ctx]

@[simp] theorem State.grantHold_chan (s : State) (n : CtxNum) (ch m : ChanNum) :
    (s.grantHold n ch).chan m =
      if ch = m then { s.chan ch with held := some n, holdAt := some (after s.clock s.params.holdLimit) }
      else s.chan m := by
  simp [State.grantHold, State.setChan_chan]

@[simp] theorem State.dropHold_ctx (s : State) (n : CtxNum) (ch : ChanNum) (m : CtxNum) :
    (s.dropHold n ch).ctx m = if n = m then { s.ctx n with holder := none } else s.ctx m := by
  simp [State.dropHold, State.setCtx_ctx]

@[simp] theorem State.dropHold_chan (s : State) (n : CtxNum) (ch m : ChanNum) :
    (s.dropHold n ch).chan m = if ch = m then { s.chan ch with held := none, holdAt := none } else s.chan m := by
  simp [State.dropHold, State.setChan_chan]

@[simp] theorem State.unpark_chan (s : State) (ch m : ChanNum) :
    (s.unpark ch).chan m =
      if ch = m then { s.chan ch with state := .idle, parkedOn := none, parkAt := none } else s.chan m := by
  simp [State.unpark, State.setChan_chan]

/-- Everything `handOn` can do: nothing when no channel waits; else the first waiting channel is granted the hold and its
FETCH is answered. -/
theorem State.handOn_cases (s : State) (n : CtxNum) :
    (s.wait n = [] ∧ s.handOn n = s) ∨
    ∃ ch rest, s.wait n = ch :: rest ∧
      s.handOn n = (((s.setWait n rest).unpark ch).grantHold n ch).answer ch fetchCode
        (.recordContext ((((s.setWait n rest).unpark ch).grantHold n ch).readOut n true)) := by
  unfold State.handOn
  cases hw : s.wait n with
  | nil => exact .inl ⟨rfl, rfl⟩
  | cons ch rest => exact .inr ⟨ch, rest, rfl, rfl⟩

/-! ## Withdrawal (R61 to R63) -/

@[simp] theorem State.raiseHighest_contexts (s : State) (c : EventClass) (n : Option CtxNum) :
    (s.raiseHighest c n).contexts = s.contexts := by
  cases n <;> rfl

@[simp] theorem State.raiseHighest_heads (s : State) (c : EventClass) (n : Option CtxNum) :
    (s.raiseHighest c n).heads = s.heads := by
  cases n <;> rfl

@[simp] theorem State.raiseHighest_plans (s : State) (c : EventClass) (n : Option CtxNum) :
    (s.raiseHighest c n).plans = s.plans := by
  cases n <;> rfl

@[simp] theorem State.raiseHighest_dueList (s : State) (c : EventClass) (n : Option CtxNum) :
    (s.raiseHighest c n).dueList = s.dueList := by
  cases n <;> rfl

/-- What a withdrawal does to one context. -/
theorem State.withdraw_ctx (s : State) (h : HeadNum) (n : CtxNum) :
    (s.withdraw h).ctx n = (s.ctx n).withdrawn h (after s.clock (1000 * s.params.orphanLimit)) := by
  simp [State.withdraw, State.ctx]

/-- What a withdrawal does to the head records: the withdrawn head's load becomes 0. -/
theorem State.withdraw_headRec (s : State) (h m : HeadNum) :
    (s.withdraw h).headRec m = if h = m then { s.headRec h with load := 0 } else s.headRec m := by
  rw [← State.setHead_headRec]; simp [State.withdraw, State.headRec]

/-- What a withdrawal does to the plans: the withdrawn head's plan is cleared. -/
theorem State.withdraw_plan (s : State) (h m : HeadNum) :
    (s.withdraw h).plan m = if h = m then Plan.allFree else s.plan m := by
  rw [← State.setPlan_plan]; simp [State.withdraw, State.plan]

/-! ## Measurement lists (R86 to R91) -/

theorem mem_insertEntry (e x : Entry) (l : List Entry) : x ∈ insertEntry e l ↔ x = e ∨ x ∈ l := by
  induction l with
  | nil => simp [insertEntry]
  | cons a l ih =>
    unfold insertEntry
    split
    · simp
    · simp only [List.mem_cons, ih]; exact or_left_comm

theorem length_insertEntry (e : Entry) (l : List Entry) : (insertEntry e l).length = l.length + 1 := by
  induction l with
  | nil => rfl
  | cons a l ih => unfold insertEntry; split <;> simp [ih]

/-- The choice of the first entry by an order answers one of the list, unless the list is empty. -/
theorem mem_of_firstBy {before : Entry → Entry → Bool} {l : List Entry} {e : Entry} (h : firstBy before l = some e) :
    e ∈ l := by
  induction l generalizing e with
  | nil => simp [firstBy] at h
  | cons a l ih =>
    unfold firstBy at h
    cases hl : firstBy before l with
    | none => simp [hl] at h; simp [h]
    | some b =>
      simp only [hl] at h
      split at h
      · rw [← Option.some.inj h]; exact List.mem_cons_of_mem _ (ih hl)
      · rw [← Option.some.inj h]; exact List.mem_cons_self ..

theorem firstBy_eq_none {before : Entry → Entry → Bool} {l : List Entry} : firstBy before l = none ↔ l = [] := by
  cases l with
  | nil => simp [firstBy]
  | cons a l =>
    simp only [firstBy]
    cases firstBy before l with
    | none => simp
    | some b => dsimp only; split <;> simp

/-! ## Stage 7 of a contact -/

/-- Everything `evaluateAt` does: the evaluation, on a record whose mark of R63 a contact from the serving head has cleared. -/
theorem State.evaluateAt_eq (s : State) (a : HeadNum) (n : CtxNum) :
    s.evaluateAt a n = s.evaluate n ∨
      s.evaluateAt a n = (s.setCtx n { s.ctx n with awaitsServing := false }).evaluate n := by
  unfold State.evaluateAt
  dsimp only
  split
  · exact .inr rfl
  · exact .inl rfl

end Sys2Proof.Machine
end

