-- ==== Sys2Proof/Laws/PerInstr.lean ====
section
/-! SUPPORT. The family of statements, one lemma for each command: a command that comes in a frame has a payload that a
frame can carry, 1 to 250 bytes (R174). -/

namespace Sys2Proof.Laws.FrameCommand

open Sys2Proof

/-- R174: the payload the encoder gives the command fits in one frame. -/
def Statement (i : Instr) : Prop :=
  ∀ (l : Link) (p : List Byte), encodeCommand i = some (l, p) → 1 ≤ p.length ∧ p.length ≤ 250

@[simp] theorem length_bytes16 (w : Half) : (bytes16 w).length = 2 := rfl

@[simp] theorem length_bytes32 (w : BitVec 32) : (bytes32 w).length = 4 := rfl

@[simp] theorem length_bytes64 (w : BitVec 64) : (bytes64 w).length = 8 := rfl

@[simp] theorem length_encodeOptHalf (w : Option Half) : (encodeOptHalf w).length = 2 := rfl

theorem length_encodeSet (s : FieldSet) : (encodeSet s).length ≤ 10 := by
  rcases s with ⟨_ | o, _ | k, _ | p, _ | b, _ | r⟩ <;>
    simp [encodeSet, optBytes32, optBytes8, optBytes16]

/-- A request payload holds the two bytes of its header and its fields. -/
theorem of_request {α : Type} {i : Instr} {ch : ChanNum} {code : Byte} {enc : α → List Byte} {wrong : List Byte}
    {b : Body α} (hi : encodeCommand i = some (.control, encodeRequest ch code enc wrong b))
    (henc : ∀ f, (enc f).length ≤ 248) (hwrong : wrong.length ≤ 248) : Statement i := by
  intro l p h
  rw [hi] at h
  obtain ⟨rfl, rfl⟩ := Prod.mk.inj (Option.some.inj h)
  cases b with
  | fields f => have := henc f; simp only [encodeRequest, List.length_cons]; omega
  | badForm => simp only [encodeRequest, List.length_cons]; omega

theorem of_none {i : Instr} (hi : encodeCommand i = none) : Statement i := by
  intro l p h
  rw [hi] at h
  cases h

theorem of_payload {i : Instr} {k : Link} {q : List Byte} (hi : encodeCommand i = some (k, q))
    (hq : 1 ≤ q.length ∧ q.length ≤ 250) : Statement i := by
  intro l p h
  rw [hi] at h
  obtain ⟨rfl, rfl⟩ := Prod.mk.inj (Option.some.inj h)
  exact hq

theorem admitReq (ch : ChanNum) (b : Body AdmitFields) : Statement (.admitReq ch b) :=
  of_request rfl (fun f => by
    have := length_encodeSet f.set
    simp at this ⊢
    omega) (by simp)

theorem retire (ch : ChanNum) (b : Body Half) : Statement (.retire ch b) :=
  of_request rfl (fun f => by simp) (by simp)

theorem find (ch : ChanNum) (b : Body Identity) : Statement (.find ch b) :=
  of_request rfl (fun f => by simp) (by simp)

theorem read (ch : ChanNum) (b : Body Half) : Statement (.read ch b) :=
  of_request rfl (fun f => by simp) (by simp)

theorem update (ch : ChanNum) (b : Body WriteFields) : Statement (.update ch b) :=
  of_request rfl (fun f => by
    have := length_encodeSet f.set
    simp at this ⊢
    omega) (by simp)

theorem fetch (ch : ChanNum) (b : Body Half) : Statement (.fetch ch b) :=
  of_request rfl (fun f => by simp) (by simp)

theorem store (ch : ChanNum) (b : Body WriteFields) : Statement (.store ch b) :=
  of_request rfl (fun f => by
    have := length_encodeSet f.set
    simp at this ⊢
    omega) (by simp)

theorem release (ch : ChanNum) (b : Body Half) : Statement (.release ch b) :=
  of_request rfl (fun f => by simp) (by simp)

theorem cancel (ch : ChanNum) (b : Body Unit) : Statement (.cancel ch b) :=
  of_request rfl (fun f => by simp) (by simp)

theorem sweep (ch : ChanNum) (b : Body SweepFields) : Statement (.sweep ch b) :=
  of_request rfl (fun f => by simp) (by simp)

theorem continueSweep (ch : ChanNum) (b : Body Unit) : Statement (.continueSweep ch b) :=
  of_request rfl (fun f => by simp) (by simp)

theorem stopSweep (ch : ChanNum) (b : Body Unit) : Statement (.stopSweep ch b) :=
  of_request rfl (fun f => by simp) (by simp)

theorem headSet (ch : ChanNum) (b : Body HeadSetFields) : Statement (.headSet ch b) :=
  of_request rfl (fun f => by simp) (by simp)

theorem headEnable (ch : ChanNum) (b : Body Byte) : Statement (.headEnable ch b) :=
  of_request rfl (fun f => by simp) (by simp)

theorem headDisable (ch : ChanNum) (b : Body Byte) : Statement (.headDisable ch b) :=
  of_request rfl (fun f => by simp) (by simp)

theorem headRead (ch : ChanNum) (b : Body Byte) : Statement (.headRead ch b) :=
  of_request rfl (fun f => by simp) (by simp)

theorem survey (ch : ChanNum) (b : Body SurveyFields) : Statement (.survey ch b) :=
  of_request rfl (fun f => by simp) (by simp)

theorem zoneSet (ch : ChanNum) (b : Body ZoneSetFields) : Statement (.zoneSet ch b) :=
  of_request rfl (fun f => by simp) (by simp)

theorem zoneRead (ch : ChanNum) (b : Body Byte) : Statement (.zoneRead ch b) :=
  of_request rfl (fun f => by simp) (by simp)

theorem vesselSet (ch : ChanNum) (b : Body VesselSetFields) : Statement (.vesselSet ch b) :=
  of_request rfl (fun f => by simp) (by simp)

theorem vesselRead (ch : ChanNum) (b : Body Byte) : Statement (.vesselRead ch b) :=
  of_request rfl (fun f => by simp) (by simp)

theorem planRead (ch : ChanNum) (b : Body Byte) : Statement (.planRead ch b) :=
  of_request rfl (fun f => by simp) (by simp)

theorem paramSet (ch : ChanNum) (b : Body ParamSetFields) : Statement (.paramSet ch b) :=
  of_request rfl (fun f => by simp) (by simp)

theorem paramRead (ch : ChanNum) (b : Body ParamReadFields) : Statement (.paramRead ch b) :=
  of_request rfl (fun f => by simp) (by simp)

theorem eventRead (ch : ChanNum) (b : Body Unit) : Statement (.eventRead ch b) :=
  of_request rfl (fun f => by simp) (by simp)

theorem eventSetup (ch : ChanNum) (b : Body EventSetupFields) : Statement (.eventSetup ch b) :=
  of_request rfl (fun f => by simp) (by simp)

theorem flush (ch : ChanNum) (b : Body Unit) : Statement (.flush ch b) :=
  of_request rfl (fun f => by simp) (by simp)

theorem illegal (ch : ChanNum) (code : Byte) : Statement (.illegal ch code) :=
  of_payload rfl (by simp)

theorem channelDiscard (channel : Byte) : Statement (.channelDiscard channel) :=
  of_payload rfl (by simp)

theorem frameDiscard (l : Link) : Statement (.frameDiscard l) := of_none rfl

theorem keepalive (h : HeadNum) (sample : Option Byte) : Statement (.keepalive h sample) :=
  of_payload rfl (by simp)

theorem arrival (h : HeadNum) (tag : Half) (sample : Byte) (position : Option Half) : Statement (.arrival h tag sample position) :=
  of_payload rfl (by simp)

theorem report (h : HeadNum) (tag : Half) (sample : Byte) (payload : ReportPayload) : Statement (.report h tag sample payload) :=
  of_payload rfl (by simp [encodeReport])

theorem malformedHeadFrame (h : HeadNum) : Statement (.malformedHeadFrame h) :=
  of_payload rfl (by simp)

theorem holdExpiry (ch : ChanNum) : Statement (.holdExpiry ch) := of_none rfl

theorem parkDeadline (ch : ChanNum) : Statement (.parkDeadline ch) := of_none rfl

theorem idleDeadline (ch : ChanNum) : Statement (.idleDeadline ch) := of_none rfl

theorem linkLoss (h : HeadNum) : Statement (.linkLoss h) := of_none rfl

theorem settleDeadline (h : HeadNum) : Statement (.settleDeadline h) := of_none rfl

theorem surveyEndTime (h : HeadNum) : Statement (.surveyEndTime h) := of_none rfl

theorem lossDeadline (n : CtxNum) : Statement (.lossDeadline n) := of_none rfl

theorem orphanDeadline (n : CtxNum) : Statement (.orphanDeadline n) := of_none rfl

theorem confirmationDeadline (n : CtxNum) : Statement (.confirmationDeadline n) := of_none rfl

theorem staleDeadline (n : CtxNum) (h : HeadNum) : Statement (.staleDeadline n h) := of_none rfl

theorem dueExpiry : Statement .dueExpiry := of_none rfl

theorem resetAssert : Statement .resetAssert := of_none rfl

theorem resetRelease : Statement .resetRelease := of_none rfl

theorem partClockTick : Statement .partClockTick := of_none rfl

theorem noCodeRequestFrame (ch : ChanNum) : Statement (.noCodeRequestFrame ch) :=
  of_payload rfl (by simp)

end Sys2Proof.Laws.FrameCommand
end

