-- ==== Sys2Proof/Laws/Wire.lean ====
section
/-! SUPPORT. What the receivers and the layouts of frames do, said once: fields as numbers high byte first (R173), masks bit
by bit, field sets (R177), the receiver on every run of bytes (R174), and the frames of a head link as they arrive and as they
are taken. -/

namespace Sys2Proof

open Machine

/-! ## Fields (R173) and masks (R177) -/

theorem bytes16_eq (w : Half) : bytes16 w = bigEndian 2 w.toNat := by
  simp [bytes16, bigEndian, List.range_succ, ← BitVec.toNat_inj, Nat.shiftRight_eq_div_pow]

theorem bytes32_eq (w : BitVec 32) : bytes32 w = bigEndian 4 w.toNat := by
  simp [bytes32, bigEndian, List.range_succ, ← BitVec.toNat_inj, Nat.shiftRight_eq_div_pow]

theorem bytes64_eq (w : BitVec 64) : bytes64 w = bigEndian 8 w.toNat := by
  simp [bytes64, bigEndian, List.range_succ, ← BitVec.toNat_inj, Nat.shiftRight_eq_div_pow]

theorem halfBytes_eq (n : Nat) : halfBytes n = bigEndian 2 n := by
  simp [halfBytes, bytes16_eq, bigEndian, List.range_succ, ← BitVec.toNat_inj]; omega

theorem wordBytes_eq (n : Nat) : wordBytes n = bigEndian 4 n := by
  simp [wordBytes, bytes32_eq, bigEndian, List.range_succ, ← BitVec.toNat_inj]; omega

theorem signedBytes_eq (x : Int) : signedBytes x = bigEndian 2 (x % 65536).toNat := by
  simp [signedBytes, bytes16_eq, BitVec.toNat_ofInt]

theorem testBit_maskOf (l : List Bool) (i : Nat) : (maskOf l).testBit i = l.getD i false := by
  induction l generalizing i with
  | nil => simp [maskOf]
  | cons b l ih =>
    cases i with
    | zero => cases b <;> simp [maskOf, Nat.testBit_zero]
    | succ i =>
      rw [Nat.testBit_succ, show maskOf (b :: l) / 2 = maskOf l by cases b <;> simp [maskOf] <;> omega, ih]; simp

theorem getLsbD_maskBit (b : Bool) (i j : Nat) : (maskBit b i).getLsbD j = (b && decide (j < 16) && decide (i = j)) := by
  cases b <;> simp [maskBit, BitVec.getLsbD_twoPow]
  by_cases h : i = j <;> simp [h]

/-- The presence mask of a read-out, as a mask of its marks in table order. -/
theorem readOut_mask_eq (r : ReadOut) : r.mask = BitVec.ofNat 16
    (maskOf [r.serving.isSome, r.target.isSome, r.confirmAt.isSome, r.lossAt.isSome, r.orphanAt.isSome,
        r.cause.isSome, r.holder.isSome, (r.crane.bind (·.position)).isSome, (r.reefer.bind (·.due)).isSome,
        (r.reefer.bind (·.lastSeq)).isSome, (r.reefer.bind (·.lastReport)).isSome, (r.reefer.bind (·.supply)).isSome,
        (r.reefer.bind (·.ret)).isSome, (r.reefer.bind (·.setpoint)).isSome, (r.reefer.bind (·.kind)).isSome]) := by
  apply BitVec.eq_of_getLsbD_eq
  intro i hi
  simp only [ReadOut.mask, BitVec.getLsbD_or, getLsbD_maskBit, BitVec.getLsbD_ofNat, testBit_maskOf, hi]
  rcases i with _|_|_|_|_|_|_|_|_|_|_|_|_|_|_|_|i <;> simp

/-! A byte of flags is the mask of its marks. -/

theorem flags_eq3 (a b c : Bool) :
    flag a 0 ||| flag b 1 ||| flag c 2 =
      BitVec.ofNat 8 (maskOf [a, b, c]) := by
  cases a <;> cases b <;> cases c <;> rfl

theorem flags_eq4 (a b c d : Bool) :
    flag a 0 ||| flag b 1 ||| flag c 2 ||| flag d 3 =
      BitVec.ofNat 8 (maskOf [a, b, c, d]) := by
  cases a <;> cases b <;> cases c <;> cases d <;> rfl

theorem flags_eq5 (a b c d e : Bool) :
    flag a 0 ||| flag b 1 ||| flag c 2 ||| flag d 3 ||| flag e 4 =
      BitVec.ofNat 8 (maskOf [a, b, c, d, e]) := by
  cases a <;> cases b <;> cases c <;> cases d <;> cases e <;> rfl

theorem flags_eq6 (a b c d e f : Bool) :
    flag a 0 ||| flag b 1 ||| flag c 2 ||| flag d 3 ||| flag e 4 ||| flag f 5 =
      BitVec.ofNat 8 (maskOf [a, b, c, d, e, f]) := by
  cases a <;> cases b <;> cases c <;> cases d <;> cases e <;> cases f <;> rfl

/-! ## Requests and field sets (R160, R176, R177) -/

theorem toNat_append_byte {n : Nat} (x : BitVec n) (b : Byte) : (x ++ b).toNat = 256 * x.toNat + b.toNat := by
  rw [BitVec.toNat_append, ← Nat.shiftLeft_add_eq_or_of_lt b.isLt, Nat.shiftLeft_eq, Nat.mul_comm]

theorem takeWord_eq (present : Bool) (bs : List Byte) : takeWord present bs =
    if present then
      if 4 ≤ bs.length then some (some (BitVec.ofNat 32 (numberAt bs 0 4)), bs.drop 4) else none
    else some (none, bs) := by
  unfold takeWord
  cases present
  · rfl
  · match bs with
    | [] | [_] | [_, _] | [_, _, _] => rfl
    | a :: b :: c :: d :: r =>
      simp [numberAt, be32]
      apply BitVec.eq_of_toNat_eq
      have h1 := toNat_append_byte (a ++ b ++ c) d
      have h2 := toNat_append_byte (a ++ b) c
      have h3 := toNat_append_byte a b
      have := a.isLt; have := b.isLt; have := c.isLt; have := d.isLt
      rw [BitVec.toNat_ofNat]
      refine h1.trans ?_
      rw [h2, h3]; omega

theorem takeHalf_eq (present : Bool) (bs : List Byte) : takeHalf present bs =
    if present then
      if 2 ≤ bs.length then some (some (BitVec.ofNat 16 (numberAt bs 0 2)), bs.drop 2) else none
    else some (none, bs) := by
  unfold takeHalf
  cases present
  · rfl
  · match bs with
    | [] | [_] => rfl
    | a :: b :: r =>
      simp [numberAt, be16]
      apply BitVec.eq_of_toNat_eq
      have h := toNat_append_byte a b
      have := a.isLt; have := b.isLt
      rw [BitVec.toNat_ofNat]
      refine h.trans ?_
      omega

theorem takeByte_eq (present : Bool) (bs : List Byte) : takeByte present bs =
    if present then
      if 1 ≤ bs.length then some (some (BitVec.ofNat 8 (numberAt bs 0 1)), bs.drop 1) else none
    else some (none, bs) := by
  unfold takeByte
  cases present
  · rfl
  · match bs with
    | [] => rfl
    | a :: r => simp [numberAt]

/-- Everything `parseSet` does: a presence byte of five marks, and exactly the bytes of the fields it marks. -/
theorem parseSet_eq (presence : Byte) (bs : List Byte) : parseSet presence bs =
    if presence.toNat < 32 ∧ bs.length = fieldPlace presence 5 then some (fieldsAt presence bs) else none := by
  unfold parseSet
  by_cases hp : presence.toNat < 32
  · simp only [hp, if_true, true_and, fieldsAt, fieldPlace, List.zipIdx, List.take, List.map, List.sum_cons, List.sum_nil,
      List.take_succ_cons, List.map_cons, List.map_nil, Nat.add_zero, Nat.zero_add, Nat.reduceAdd, takeWord_eq, takeHalf_eq,
      takeByte_eq]
    generalize presence.getLsbD 0 = b0
    generalize presence.getLsbD 1 = b1
    generalize presence.getLsbD 2 = b2
    generalize presence.getLsbD 3 = b3
    generalize presence.getLsbD 4 = b4
    rcases bs with _ | ⟨x0, _ | ⟨x1, _ | ⟨x2, _ | ⟨x3, _ | ⟨x4, _ | ⟨x5, _ | ⟨x6, _ | ⟨x7, _ | ⟨x8, _ | ⟨x9, bs⟩⟩⟩⟩⟩⟩⟩⟩⟩⟩ <;>
      cases b0 <;> cases b1 <;> cases b2 <;> cases b3 <;> cases b4 <;> simp [numberAt]
  · simp [hp]

/-- R160, R176: a payload for a channel that exists, with a code, is that code's request. -/
theorem frameCommand_control (ch : ChanNum) (code : Byte) (rest : List Byte) :
    frameCommand .control (BitVec.ofNat 8 ch.val :: code :: rest) = requestCommand ch code rest := by
  have h : (BitVec.ofNat 8 ch.val).toNat = ch.val := by simp; omega
  simp only [frameCommand, controlCommand, h, ch.isLt, dite_true]

/-! ## The receiver (R174) -/

/-- The fuel of the receiver does not matter. -/
theorem scan_of_length_le {k : Nat} {bs : List Byte} (h : bs.length ≤ k) : scan k bs = receiveFrames bs := by
  unfold receiveFrames
  suffices ∀ k m (bs : List Byte), bs.length ≤ k → bs.length ≤ m → scan k bs = scan m bs from
    this _ _ _ h (Nat.le_refl _)
  intro k
  induction k with
  | zero => intro m bs hk _; have : bs = [] := List.eq_nil_of_length_eq_zero (by omega); subst this; cases m <;> rfl
  | succ k ih =>
    intro m bs hk hm
    cases bs with
    | nil => cases m <;> rfl
    | cons b bs =>
      cases m with
      | zero => simp at hm
      | succ m =>
        simp only [List.length_cons, Nat.add_le_add_iff_right] at hk hm
        unfold scan
        split
        · cases bs with
          | nil => rfl
          | cons len rest =>
            have h1 : (len :: rest).length ≤ k := hk
            have h2 : (len :: rest).length ≤ m := hm
            have d1 : (rest.drop (len.toNat + 2)).length ≤ k := by simp at hk ⊢; omega
            have d2 : (rest.drop (len.toNat + 2)).length ≤ m := by simp at hm ⊢; omega
            simp only [ih m _ h1 h2, ih m _ d1 d2]
        · exact ih m bs hk hm

theorem receiveFrames_skip {b : Byte} {bs : List Byte} (h : b ≠ 0xA5#8) : receiveFrames (b :: bs) = receiveFrames bs := by
  simp [receiveFrames, scan, h]

theorem receiveFrames_badLength {n : Byte} {rest : List Byte} (h : n.toNat = 0 ∨ 250 < n.toNat) :
    receiveFrames (0xA5#8 :: n :: rest) =
      (.discarded :: (receiveFrames (n :: rest)).1, (receiveFrames (n :: rest)).2) := by
  rw [receiveFrames, List.length_cons, scan]
  simp only [if_true, h]; rfl

theorem receiveFrames_unfinished {n : Byte} {rest : List Byte} (h1 : 1 ≤ n.toNat) (h2 : n.toNat ≤ 250)
    (h : rest.length < n.toNat + 2) : receiveFrames (0xA5#8 :: n :: rest) = ([], 0xA5#8 :: n :: rest) := by
  rw [receiveFrames, List.length_cons, scan]
  have : ¬ (n.toNat = 0 ∨ 250 < n.toNat) := by omega
  simp [this, h]

theorem bytes16_inj {v w : Half} : bytes16 v = bytes16 w ↔ v = w := by
  constructor
  · intro h
    simp only [bytes16, List.cons.injEq, and_true] at h
    apply BitVec.eq_of_getLsbD_eq
    intro i hi
    by_cases hl : i < 8
    · have := congrArg (fun x => x.getLsbD i) h.2; simpa [hl] using this
    · have := congrArg (fun x => x.getLsbD (i - 8)) h.1
      have e : 8 + (i - 8) = i := by omega
      simpa [show i - 8 < 8 by omega, e] using this
  · rintro rfl; rfl

theorem bytes16_append (a b : Byte) : bytes16 (a ++ b) = [a, b] := by
  simp only [bytes16]
  congr 1
  · apply BitVec.eq_of_getLsbD_eq; intro i hi; rw [BitVec.getLsbD_extractLsb', BitVec.getLsbD_append]
    simp [hi, show ¬ 8 + i < 8 by omega]
  · congr 1; apply BitVec.eq_of_getLsbD_eq; intro i hi
    rw [BitVec.getLsbD_extractLsb', BitVec.getLsbD_append]; simp [hi]

theorem receiveFrames_whole {n : Byte} {p : List Byte} (a b : Byte) (rest : List Byte) (h1 : 1 ≤ n.toNat)
    (h2 : n.toNat ≤ 250) (h : p.length = n.toNat) :
    receiveFrames (0xA5#8 :: n :: (p ++ a :: b :: rest)) =
      ((if crc (n :: p) = a ++ b then .good p else .discarded) :: (receiveFrames rest).1, (receiveFrames rest).2) := by
  rw [receiveFrames, List.length_cons, scan]
  have hn : ¬ (n.toNat = 0 ∨ 250 < n.toNat) := by omega
  have hl : ¬ (p ++ a :: b :: rest).length < n.toNat + 2 := by simp; omega
  have hd : (p ++ a :: b :: rest).drop (n.toNat + 2) = rest := by
    rw [← h, ← List.drop_drop]; simp
  have hd2 : ((p ++ a :: b :: rest).drop n.toNat).take 2 = [a, b] := by rw [← h]; simp
  have ht : (p ++ a :: b :: rest).take n.toNat = p := by rw [← h]; simp
  have hs : scan (n :: (p ++ a :: b :: rest)).length rest = receiveFrames rest :=
    scan_of_length_le (by simp; omega)
  simp only [if_true, hn, hl, if_false, hd, hd2, ht, hs]
  simp only [← bytes16_append, bytes16_inj]
  split <;> rfl

/-- R174: the CRC takes the bits of one more byte, most significant first. -/
theorem crc_concat (bs : List Byte) (b : Byte) :
    crc (bs ++ [b]) = [7, 6, 5, 4, 3, 2, 1, 0].foldl (fun c i => crcBit c (b.getLsbD i)) (crc bs) := by
  simp only [crc, List.foldl_append, List.foldl_cons, List.foldl_nil, crcByte]

theorem crcBit_eq (c : Half) (x : Bool) :
    crcBit c x = if c.getLsbD 15 = x then c <<< 1 else (c <<< 1) ^^^ 0x1021 := by
  have hm : c.msb = c.getLsbD 15 := by simp [BitVec.msb_eq_getLsbD_last]
  rw [crcBit, hm]; cases c.getLsbD 15 <;> cases x <;> simp

/-! ## Frames of a head link (R46, R175) -/

theorem heard_heard (r : Head) (now : Time) : (r.heard now).heard now = r.heard now := by
  by_cases h : r.link = .absent <;> simp [Head.heard, h]

/-- Everything `presence` does. -/
theorem presence_eq (s : State) (h : HeadNum) :
    s.presence h = { s with heads := s.heads.set h ((s.headRec h).heard s.clock) } := by
  by_cases hl : (s.headRec h).link = .absent <;>
    simp [State.presence, hl, State.setHead, Head.heard, Config.settleMs, Config.silenceMs]

/-- Everything `takeFrame` does. -/
theorem takeFrame_eq (s : State) (h : HeadNum) : s.takeFrame h = s.hearing h := by
  simp only [State.takeFrame, State.hearing, presence_eq]

/-- Everything the frames that arrive together do. -/
theorem foldl_frameArrives (l : List Received) (s : State) (h : HeadNum) :
    l.foldl (fun s x => s.frameArrives h x) s = { s with
      heads := if l.countP (· ≠ .discarded) = 0 then s.heads else s.heads.set h ((s.headRec h).heard s.clock)
      counted := s.counted.set h (s.counted[h] + l.countP (· ≠ .discarded)) } := by
  induction l generalizing s with
  | nil => simp
  | cons x l ih =>
    rw [List.foldl_cons, ih]
    cases x with
    | discarded => simp [State.frameArrives]
    | good p =>
      simp only [State.frameArrives, presence_eq]
      simp [State.headRec, heard_heard, Nat.add_assoc, Nat.add_comm 1]

/-- R46, R47: presence keeps the laws of a head record. -/
theorem heard_lawful {r : Head} (now : Time) (h : r.Lawful) : (r.heard now).Lawful := by
  obtain ⟨h1, h2, h3, h4, h5, h6, h7, h8⟩ := h
  by_cases ha : r.link = .absent
  · have hf : r.floor = none := h6 (.inl ha)
    have hs : r.survey ≠ .running := fun x => by simpa [ha] using h4 x
    exact ⟨by simp [Head.heard, ha], by simp [Head.heard, ha], h3, fun x => absurd x hs, h5, fun _ => hf,
      by simp [Head.heard, ha], h8⟩
  · exact ⟨by simp [Head.heard, ha], by simpa [Head.heard, ha] using h2, h3, by simpa [Head.heard, ha] using h4, h5,
      by simpa [Head.heard, ha] using fun x => h6 (.inr x), by simpa [Head.heard, ha] using h7, h8⟩

/-- Presence puts no head into or out of service. -/
theorem heard_inService (r : Head) (now : Time) : (r.heard now).link = .inService ↔ r.link = .inService := by
  by_cases ha : r.link = .absent <;> simp [Head.heard, ha]

theorem hearing_headTx (s : State) (h : HeadNum) : (s.hearing h).headTx = s.headTx := by
  unfold State.hearing; split <;> rfl

theorem hearing_resolve (s : State) (h : HeadNum) (tag : Half) : (s.hearing h).resolve tag = s.resolve tag := by
  unfold State.hearing; split <;> rfl

theorem hearing_params (s : State) (h : HeadNum) : (s.hearing h).params = s.params := by
  unfold State.hearing; split <;> rfl

/-- A frame that is taken puts no head into or out of service. -/
theorem hearing_inService (s : State) (h m : HeadNum) : (s.hearing h).inService m = s.inService m := by
  rw [Bool.eq_iff_iff]
  unfold State.hearing
  split
  · by_cases e : h = m
    · subst e
      by_cases hl : (s.headRec h).link = .absent
      · simp_all [State.inService, State.headRec, Head.heard]
      · simp_all [State.inService, State.headRec, Head.heard]
        exact decide_eq_true_iff.symm
    · have e' : h.val ≠ m.val := fun x => e (Fin.ext x)
      simp [State.inService, State.headRec, e']
      exact decide_eq_true_iff.symm
  · rfl

/-- An ANSWER of the early stages goes on any link but that of an ABSENT head (R46). -/
theorem sendHead_answer (s : State) (h : HeadNum) (tag : Half) (v : Verdict) (x : Option HeadNum) :
    s.sendHead h (.answer tag v x) = { s with
      headTx := if (s.headRec h).link = .absent then s.headTx else queueOn s.headTx h [.answer tag v x] } := by
  cases hl : (s.headRec h).link <;> simp [State.sendHead, hl, HeadMsg.allowedIn, queueOn]

end Sys2Proof
end

