-- ==== Sys2Proof/Tests/Slice0.lean ====
section
/-! SUPPORT. Tests: ill-formed terms, small steps from the worked examples of the spec, and for each statement with hypotheses
states and operands that meet them. -/

namespace Sys2Proof.Tests

open Sys2Proof Sys2Proof.Machine

/-! ## Ill-formed terms -/

theorem test_wf_refuses_a_known_code : (Instr.illegal 0 0x05).wf = false := by decide

theorem test_wf_takes_an_unknown_code : (Instr.illegal 0 0x0D).wf = true := by decide

theorem test_wf_refuses_an_existing_channel : (Instr.channelDiscard 3).wf = false := by decide

theorem test_wf_takes_channel_4 : (Instr.channelDiscard 4).wf = true := by decide

/-! ## A small state: heads 2 and 5 in service, head 3 STANDBY, a CRANE and a REEFER on head 2 -/

def served : Head :=
  { Head.reset with link := .inService, floor := some 40, idle := some 320, silenceAt := some 30 }

def settled : Head := { Head.reset with link := .standby, silenceAt := some 30 }

def entryOf (h : HeadNum) (f : Int) : Entry :=
  { head := h, f := f, last := 0, count := 0, staleAt := some 5001, stale := false }

def crane : Context :=
  { Context.freeIn 0 with
    state := .active, identity := some 70, cls := some .crane, serving := some 2, lossAt := some 120
    entries := [entryOf 2 304], crane := some ⟨2, none⟩ }

def part : ReeferPart :=
  { period := 300, band := 20, rise := 15, admitted := 0, due := some 300000, lastSeq := none, lastReport := none
    supply := none, ret := none, setpoint := none, faults := ⟨false, false, false⟩, kind := none
    ind := ⟨false, false, false, false⟩ }

def reefer : Context :=
  { Context.freeIn 0 with
    state := .active, identity := some 71, cls := some .reefer, serving := some 2, entries := [entryOf 2 304]
    reefer := some part }

def berth : State :=
  { State.reset with
    heads := ((State.reset.heads.set 2 { served with load := 2 }).set 3 settled).set 5 served
    contexts := (State.reset.contexts.set 0 crane).set 1 reefer
    plans := State.reset.plans.set 2 ((Plan.allFree.set 0 (.active 0)).set 1 (.active 0))
    idMap := [(70, 0), (71, 1)], freeList := (List.finRange 2048).drop 2, craneCount := 1, dueList := [1] }

/-- The berth with its crane MOVING toward head 5, two slots pending there. -/
def moving : State :=
  { berth with
    contexts := berth.contexts.set 0 { crane with
      state := .moving, target := some 5, confirmAt := some 60, entries := [entryOf 2 304, entryOf 5 340] }
    plans := berth.plans.set 5 ((Plan.allFree.set 0 (.pending 0)).set 1 (.pending 0)) }

/-- The berth with channel 0 holding the crane and channel 1 parked on it. -/
def holding : State :=
  { berth with
    contexts := berth.contexts.set 0 { crane with holder := some 0 }
    channels := (berth.channels.set 0 { Channel.reset with held := some 0, holdAt := some 50 }).set 1
      { Channel.reset with state := .parked, parkedOn := some 0, parkAt := some 60 }
    waits := berth.waits.set 0 [1] }

/-- The berth with channel 2 SWEEPING from context 1. -/
def sweeping : State :=
  { berth with
    channels := berth.channels.set 2 { Channel.reset with
      state := .sweeping, idleAt := some 50
      sweep := some ⟨⟨⟨true, true, true⟩, ⟨true, true, true, true⟩, ⟨false, false, false, false⟩, none⟩, 1⟩ } }

def noFields : FieldSet := ⟨none, none, none, none, none⟩

theorem ready_berth (ch : ChanNum) : berth.Ready ch := ⟨rfl, by revert ch; decide⟩

/-! ## Steps on the small state -/

def answersOf : Host.Outcome State Fault Refusal → List Answer
  | .next t => t.controlTx
  | _ => []

def headTxOf (h : HeadNum) : Host.Outcome State Fault Refusal → List HeadMsg
  | .next t => t.headTx[h]
  | _ => []

def ctxAfter (n : CtxNum) : Host.Outcome State Fault Refusal → Option Context
  | .next t => some (t.ctx n)
  | _ => none

theorem test_admit_takes_the_next_number :
    answersOf (exec (.admitReq 1 (.fields ⟨99, 2, 5, 82, noFields⟩)) berth) =
      [⟨1, 0x01, .admitted 2 2 ⟨none, none, none, none, none⟩⟩] := by decide +kernel

theorem test_admit_crane_gets_the_lowest_slots :
    headTxOf 2 (exec (.admitReq 1 (.fields ⟨99, 0, 2, 82, { noFields with slotCount := some 3 }⟩)) berth) =
      [.plan 2 (.active 2), .plan 3 (.active 2), .plan 4 (.active 2)] := by decide +kernel

theorem test_retire_frees_the_slots :
    headTxOf 2 (exec (.retire 1 (.fields 0)) berth) = [.plan 0 .free, .plan 1 .free] ∧
    ctxAfter 0 (exec (.retire 1 (.fields 0)) berth) = some (Context.freeIn 1) := by decide +kernel

theorem test_find : answersOf (exec (.find 3 (.fields 71)) berth) = [⟨3, 0x03, .found 1 1 .active 0⟩] := by decide +kernel

theorem test_update_moves_the_due_time :
    (ctxAfter 1 (exec (.update 0 (.fields ⟨1, { noFields with period := some 60 }⟩)) berth)).bind Context.due =
      some 60000 := by decide +kernel

theorem test_release_answers_done_then_record :
    (answersOf (exec (.release 0 (.fields 0)) holding)).map (fun a => (a.channel, a.echo, a.reply.code)) =
      [(0, 0x08, 0x00), (1, 0x06, 0x04)] := by decide +kernel

theorem test_cancel_closes_the_parked_fetch :
    answersOf (exec (.cancel 1 (.fields ())) holding) = [⟨1, 0x06, .cancelled⟩] := by decide +kernel

theorem test_continue_reports_from_the_cursor :
    answersOf (exec (.continueSweep 2 (.fields ())) sweeping) =
      [⟨2, 0x0B, .block [⟨1, 1, some .reefer, .active, 0⟩] true⟩] := by decide +kernel

theorem test_arrival_on_the_serving_head_is_accepted :
    headTxOf 2 (exec (.arrival 2 0 78 none) berth) = [.answer 0 .accept (some 2)] := by decide +kernel

theorem test_arrival_on_another_head_is_redirected :
    headTxOf 5 (exec (.arrival 5 0 78 none) berth) = [.answer 0 .redirect (some 2)] := by decide +kernel

theorem test_arrival_with_an_old_tag_is_stale :
    headTxOf 2 (exec (.arrival 2 2048 78 none) berth) = [.answer 2048 .stale none] := by decide +kernel

theorem test_arrival_on_a_standby_head_is_deferred :
    headTxOf 3 (exec (.arrival 3 0 78 none) berth) = [.answer 0 .defer none] := by decide +kernel

/-- R46, R66: a contact that arrives on an ABSENT head finds it SETTLING; R83: one that waited while its link was lost finds
it ABSENT, and its ANSWER is discarded. -/
theorem test_arrival_on_an_absent_head :
    headTxOf 0 (exec (.arrival 0 0 78 none) berth) = [.answer 0 .defer none] ∧
    headTxOf 0 (exec (.arrival 0 0 78 none) { berth with counted := berth.counted.set 0 1 }) = [] := by decide +kernel

/-- R175: a frame counts as presence as it arrives, and its command waits. -/
theorem test_head_frame_arrives :
    ((berth.receiveHead 0 (frame [0x01, 0x00, 0x00])).headRec 0).link = .settling ∧
    (berth.receiveHead 0 (frame [0x01, 0x00, 0x00])).counted[0] = 1 ∧
    (berth.receiveHead 0 (frame [0x01, 0x00, 0x00])).pending = [.keepalive 0 none] := by decide +kernel

theorem test_arrival_from_the_target_confirms :
    headTxOf 5 (exec (.arrival 5 0 78 none) moving) =
      [.plan 0 (.active 0), .plan 1 (.active 0), .answer 0 .confirm (some 5)] ∧
    headTxOf 2 (exec (.arrival 5 0 78 none) moving) = [.plan 0 .free, .plan 1 .free] := by decide +kernel

/-- Chapter 5's worked example: F = 300, sample 82 on floor 36, w = 1. -/
theorem test_filter_worked_example : filterStep 300 (margin 82 36) 1 = 334 := by decide

theorem test_filter_truncates_toward_zero : filterStep (-500) (margin 10 90) 3 = -501 := by decide

/-- Chapter 3's worked example: the ninth keepalive with sample 60, and the tenth with 30. -/
theorem test_idle_noise_worked_example : idleStep 381 60 = 387 ∧ idleStep 387 30 = 378 := by decide

theorem test_report_sets_warm_over_the_band :
    ((⟨false, false, false, false⟩ : Indicators).after .periodic (some (-175)) (some (-155)) (some (-180)) 20 15
      ⟨false, false, false⟩) = ⟨true, false, true, false⟩ := by decide

theorem test_saturation : saturate 600 = 500 ∧ saturate 0xFDA8 = -500 := by decide

theorem test_zone_worked_example :
    (answersOf (exec (.zoneSet 0 (.fields ⟨2, 1, 12288, 3, #v[3, 5, 5, 7]⟩)) berth)).map (·.reply) = [.done] ∧
    (answersOf (exec (.zoneSet 0 (.fields ⟨2, 1, 14000, 2, #v[3, 5, 5, 7]⟩)) berth)).map (·.reply) = [.align] := by
  decide +kernel

theorem test_param_is_clamped :
    answersOf (exec (.paramSet 0 (.fields ⟨8, 0xFF, 5000⟩)) berth) = [⟨0, 0x20, .value (.single .holdLimit) 1000⟩] := by
  decide +kernel

theorem test_flush_answers_the_parked_fetch_first :
    (answersOf (exec (.flush 3 (.fields ())) holding)).map (fun a => (a.channel, a.reply)) =
      [(1, .cancelled), (3, .done)] := by decide +kernel

theorem test_deadline_wraps : reached 5 0xFFFFFFF0 = true ∧ reached 0xFFFFFFF0 5 = false ∧ earlier 0xFFFFFFF0 5 = true := by
  decide

/-- The CRC of the bytes '1' to '9' is the known check value of this polynomial and initial value. -/
theorem test_crc_check_value : crc [0x31, 0x32, 0x33, 0x34, 0x35, 0x36, 0x37, 0x38, 0x39] = 0x29B1 := by decide +kernel

theorem test_frame_is_received :
    receiveFrames ([0x00] ++ frame [0x00, 0x03, 0, 0, 0, 0, 0, 0, 0, 71] ++ [0xA5]) =
      ([.good [0x00, 0x03, 0, 0, 0, 0, 0, 0, 0, 71]], [0xA5]) ∧
    frameCommand .control [0x00, 0x03, 0, 0, 0, 0, 0, 0, 0, 71] = .find 0 (.fields 71) := by decide +kernel

/-! ## The small state obeys every law -/

theorem berth_ctx (n : CtxNum) :
    berth.ctx n = if n = 1 then reefer else if n = 0 then crane else Context.freeIn 0 := by
  by_cases h1 : n = 1
  · subst h1; decide
  · by_cases h0 : n = 0
    · subst h0; decide
    · have e1 : ¬ 1 = n.val := fun e => h1 (Fin.ext e.symm)
      have e0 : ¬ 0 = n.val := fun e => h0 (Fin.ext e.symm)
      rw [if_neg h1, if_neg h0]
      simp [berth, State.ctx, State.reset, e1, e0]

theorem berth_head (h : HeadNum) :
    berth.headRec h = if h = 5 then served else if h = 3 then settled else if h = 2 then { served with load := 2 } else Head.reset := by
  revert h; decide

theorem berth_plan (h : HeadNum) :
    berth.plan h = if h = 2 then (Plan.allFree.set 0 (.active 0)).set 1 (.active 0) else Plan.allFree := by
  revert h; decide

theorem berth_params : berth.ParamsInRange := by
  rintro (⟨p, c⟩ | p) <;> cases p <;> (try cases c) <;> decide

theorem berth_zones : berth.ZonesLawful := by
  unfold State.ZonesLawful
  have off : ∀ v : Fin 8, (berth.zone v).enabled = false := by decide
  exact ⟨fun w h => absurd h (by simp [off]), fun v w _ h => absurd h (by simp [off])⟩

theorem berth_vessels : berth.VesselsLawful := by unfold State.VesselsLawful; decide
theorem berth_events : berth.EventsLawful := by
  intro c; cases c <;> decide

theorem head_reset_lawful : Head.reset.Lawful := by simp [Head.Lawful, Head.reset]

theorem berth_heads : berth.HeadsLawful := by
  intro h
  rw [berth_head]
  split
  · simp [Head.Lawful, served, Head.reset]
  · split
    · simp [Head.Lawful, settled, Head.reset]
    · split
      · simp [Head.Lawful, served, Head.reset]
      · exact head_reset_lawful

theorem berth_contexts : berth.ContextsLawful := by
  intro n
  rw [berth_ctx]
  split
  · simp [Context.Lawful, Context.PartsLawful, reefer, Context.freeIn, Context.due, part]
  · split
    · simp [Context.Lawful, Context.PartsLawful, crane, Context.freeIn, Context.due]
    · simp [Context.Lawful, Context.freeIn]

theorem berth_values : berth.ValuesInRange := by
  intro n
  rw [berth_ctx]
  split
  · simp [Context.ValuesInRange, reefer, Context.freeIn, part]
  · split <;> simp [Context.ValuesInRange, crane, Context.freeIn]

theorem berth_entries : berth.EntriesLawful := by
  intro n
  rw [berth_ctx]
  split
  · simp [Context.EntriesLawful, reefer, entryOf]
  · split <;> simp [Context.EntriesLawful, crane, Context.freeIn, entryOf]

theorem berth_inService (h : HeadNum) : berth.inService h = decide (h = 2 ∨ h = 5) := by revert h; decide

theorem berth_roles : berth.RolesLawful := by
  intro n
  simp only [berth_ctx, berth_inService]
  split
  · simp [reefer, Context.freeIn, entryOf]
  · split <;> simp [crane, Context.freeIn, entryOf]

theorem berth_free (n : CtxNum) : (berth.ctx n).state = .free ↔ 2 ≤ n.val := by
  rw [berth_ctx]
  split <;> rename_i h
  · subst h; decide
  · split <;> rename_i h2
    · subst h2; decide
    · have e1 : ¬ n.val = 1 := fun e => h (Fin.ext e)
      have e0 : ¬ n.val = 0 := fun e => h2 (Fin.ext e)
      exact ⟨fun _ => by omega, fun _ => rfl⟩

theorem mem_drop_finRange {m : Nat} (k : Nat) (n : Fin m) : n ∈ (List.finRange m).drop k ↔ k ≤ n.val := by
  rw [List.mem_iff_getElem]
  constructor
  · rintro ⟨i, hi, e⟩; rw [← e]; simp
  · intro h; exact ⟨n.val - k, by simp; omega, by apply Fin.ext; simp; omega⟩

theorem nodup_drop_finRange (m k : Nat) : ((List.finRange m).drop k).Nodup :=
  (List.nodup_finRange m).sublist (List.drop_sublist k _)

theorem berth_freeList_eq : berth.freeList = (List.finRange 2048).drop 2 := by simp only [berth]

theorem berth_freeList : berth.FreeListLawful := by
  rw [State.FreeListLawful, berth_freeList_eq]
  exact ⟨nodup_drop_finRange 2048 2, fun n => (mem_drop_finRange 2 n).trans (berth_free n).symm⟩

theorem berth_idMap : berth.IdMapLawful := by
  refine ⟨by decide, fun id n => ?_⟩
  rw [show berth.idMap = [(70, 0), (71, 1)] from rfl, berth_ctx]
  split <;> rename_i h
  · subst h; simp [reefer, eq_comm]
  · split <;> rename_i h2
    · subst h2; simp [crane, eq_comm]
    · simp [Context.freeIn, h, h2]

theorem berth_cranes : berth.CraneCountLawful := by unfold State.CraneCountLawful; decide +kernel
theorem berth_loads : berth.LoadsLawful := by unfold State.LoadsLawful; decide +kernel

theorem berth_named : berth.SlotsNamed := by
  intro h i n
  rw [berth_plan]
  split
  · rename_i h2; subst h2
    have : ∀ i : SlotNum, ((Plan.allFree.set 0 (.active 0)).set 1 (.active 0))[i] = .free ∨ ((Plan.allFree.set 0 (.active 0)).set 1 (.active 0))[i] = .active 0 := by decide
    rcases this i with e | e <;> rw [e] <;> simp
    rintro rfl
    decide
  · simp [Plan.allFree]

theorem berth_counted : berth.SlotsCounted := by
  intro n p
  rw [berth_ctx]
  split
  · simp [reefer, Context.freeIn]
  · split
    · rename_i h; subst h
      simp only [crane, Option.some.injEq]
      rintro rfl
      simp [Context.freeIn]
      decide
    · simp [Context.freeIn]

theorem berth_channels : berth.ChannelsLawful := by
  intro ch
  have : ∀ ch : ChanNum, berth.chan ch = Channel.reset := by decide
  rw [this]
  simp [Channel.Lawful, Channel.reset]

theorem berth_holder (n : CtxNum) : (berth.ctx n).holder = none := by
  rw [berth_ctx]; split
  · rfl
  · split <;> rfl

theorem berth_holds : berth.HoldsLawful := by
  have hc : ∀ ch : ChanNum, berth.chan ch = Channel.reset := by decide
  have hw : ∀ n : CtxNum, berth.wait n = [] := by
    intro n; simp [berth, State.wait, State.reset]
  simp [State.HoldsLawful, hc, hw, berth_holder, Channel.reset]

theorem berth_dueList : berth.DueListLawful := by
  refine ⟨by decide, fun n => ?_⟩
  rw [show berth.dueList = [1] from rfl, berth_ctx]
  split <;> rename_i h
  · subst h; simp [reefer, Context.due, part]
  · split <;> simp [h, crane, Context.freeIn, Context.due]

theorem berth_lawful : berth.Lawful :=
  ⟨berth_params, berth_zones, berth_vessels, berth_events, berth_heads, berth_contexts, berth_values, berth_entries,
    berth_roles, berth_freeList, berth_idMap, berth_cranes, berth_loads, berth_named, berth_counted, berth_channels,
    berth_holds, berth_dueList⟩
theorem holding_ctx (n : CtxNum) :
    holding.ctx n = if n = 0 then { crane with holder := some 0 } else berth.ctx n := by
  by_cases h0 : n = 0
  · subst h0; decide
  · have e0 : ¬ 0 = n.val := fun e => h0 (Fin.ext e.symm)
    rw [if_neg h0]
    simp [holding, State.ctx, e0]

theorem holding_wait (n : CtxNum) : holding.wait n = if n = 0 then [1] else [] := by
  by_cases h0 : n = 0
  · subst h0; decide
  · have e0 : ¬ 0 = n.val := fun e => h0 (Fin.ext e.symm)
    rw [if_neg h0]
    simp [holding, berth, State.reset, State.wait, e0]

theorem holding_chan (ch : ChanNum) :
    holding.chan ch =
      if ch = 0 then { Channel.reset with held := some 0, holdAt := some 50 }
      else if ch = 1 then { Channel.reset with state := .parked, parkedOn := some 0, parkAt := some 60 }
      else Channel.reset := by
  revert ch; decide

theorem holding_channels : holding.ChannelsLawful := by
  intro ch
  rw [holding_chan]
  split
  · simp [Channel.Lawful, Channel.reset]
  · split <;> simp [Channel.Lawful, Channel.reset]

theorem holding_holder (n : CtxNum) : (holding.ctx n).holder = if n = 0 then some 0 else none := by
  rw [holding_ctx]
  split
  · rfl
  · exact berth_holder n

theorem holding_used (n : CtxNum) (h : (holding.ctx n).state = .free) : n ≠ 0 := by
  rintro rfl
  revert h
  decide

theorem holding_holds : holding.HoldsLawful := by
  refine ⟨fun n ch => ?_, fun n h => ?_, fun n => ?_, fun n ch => ?_, fun n ch h => ?_⟩
  · rw [holding_holder, holding_chan]
    split <;> (try split) <;> (try split) <;> simp_all [Channel.reset, eq_comm]
  · rw [holding_holder, if_neg (holding_used n h)]
  · rw [holding_wait]; split <;> simp
  · rw [holding_wait, holding_chan]
    split <;> (try split) <;> (try split) <;> simp_all [Channel.reset, eq_comm]
  · rw [holding_chan] at h
    rw [holding_holder, holding_chan]
    revert h
    split
    · simp [Channel.reset]
    · split
      · simp only [Option.some.injEq]
        rintro rfl
        simp [Channel.reset]
      · simp [Channel.reset]

/-! ## Every statement with hypotheses has states and operands that meet them -/

theorem witness_StepTakesTheFrontCommand :
    ({ berth with pending := [.partClockTick] } : State).pending = .partClockTick :: [] := rfl

theorem witness_IdleStepSendsTheOldestFrames :
    berth.pending = [] := rfl

theorem witness_EveryCommandHasANextState :
    (Instr.channelDiscard 4).wf = true ∧ (Instr.illegal 3 0x00).wf = true ∧ (Instr.fetch 0 .badForm).wf = true := by decide

theorem witness_NothingIsTakenWhileResetIsLow :
    berth.inReset.resetLow = true ∧ (Instr.partClockTick).wf = true ∧ Instr.partClockTick ≠ .resetAssert ∧
      Instr.partClockTick ≠ .resetRelease := by decide

theorem witness_RequestsAreTakenOrTurnedAway :
    holding.resetLow = false ∧ sweeping.resetLow = false ∧
    (Instr.fetch 0 .badForm).takenIn (holding.chan 0).state = true ∧
    (Instr.fetch 1 .badForm).takenIn (holding.chan 1).state = false ∧
    (Instr.cancel 1 .badForm).takenIn (holding.chan 1).state = true ∧
    (Instr.cancel 2 .badForm).takenIn (sweeping.chan 2).state = false ∧
    (Instr.stopSweep 2 .badForm).takenIn (sweeping.chan 2).state = true ∧
    (Instr.fetch 1 .badForm).wf = true ∧ (Instr.fetch 1 .badForm).request = some (1, 0x06) := by decide

theorem witness_RefusalsForFormChangeNothing :
    (Instr.cancel 1 .badForm).request = some (1, 0x09) ∧ (Instr.cancel 1 .badForm).badlyFormed = true ∧
    (Instr.cancel 1 .badForm).takenIn (holding.chan 1).state = true ∧ holding.resetLow = false ∧
    (0x0D : Byte) ∉ Instr.requestCodes ∧ (0x25 : Byte) ∉ Instr.requestCodes ∧ (0x24 : Byte) ∈ Instr.requestCodes ∧
    3 < (4 : Byte).toNat ∧ (3 : Byte).toNat ≤ 3 := by decide

theorem witness_EveryRequestIsAnsweredOnce :
    (Instr.cancel 1 (.fields ())).wf = true ∧ (Instr.cancel 1 (.fields ())).request = some (1, 0x09) ∧
    holding.resetLow = false ∧ holding.ChannelsLawful ∧ holding.HoldsLawful ∧ berth.ChannelsLawful ∧ berth.HoldsLawful := ⟨by decide, by decide, rfl, holding_channels, holding_holds, berth_channels, berth_holds⟩

theorem witness_AdmissionChecks :
    berth.Ready 0 ∧ 15 < (16 : Byte).toNat ∧ 2 < (3 : Byte).toNat ∧ headOf 15 = some 15 ∧ headOf 2 = some 2 ∧ classOf 0 = some .crane ∧
    ¬ FieldSet.Belongs { noFields with period := some 15 } .crane ∧ noFields.Belongs .crane ∧
    lookupId berth.idMap 70 = some 0 ∧ lookupId berth.idMap 99 = none ∧
    (berth.headRec 3).link ≠ .inService ∧ (berth.headRec 2).link = .inService ∧
    ({ berth with freeList := [] } : State).freeList = [] ∧ (∃ n rest, berth.freeList = n :: rest) ∧
    64 ≤ ({ berth with craneCount := 64 } : State).craneCount ∧ ¬ 64 ≤ berth.craneCount ∧
    ((berth.setHead 2 { served with load := 2, capacity := 2 }).headRec 2).capacity ≤ 2 ∧
    (berth.headRec 2).load < (berth.headRec 2).capacity ∧
    (berth.setPlan 2 (Vector.replicate 32 (.active 0))).freeCount 2 < noFields.admitSlots := by
  refine ⟨ready_berth 0, by decide, by decide, by decide, by decide, by decide, by simp [FieldSet.Belongs], by simp [FieldSet.Belongs, noFields],
    by decide, by decide, by decide, by decide, rfl, ⟨2, (List.finRange 2048).drop 3, by decide +kernel⟩, by decide, by decide, by decide, by decide, by decide⟩

theorem witness_AdmissionMakesTheContext :
    berth.Ready 0 ∧ headOf 2 = some 2 ∧ classOf 0 = some .crane ∧ classOf 1 = some .reefer ∧ classOf 2 = some .general ∧
    (∀ c, noFields.Belongs c) ∧ lookupId berth.idMap 99 = none ∧ (berth.headRec 2).link = .inService ∧
    (berth.headRec 2).floor = some 40 ∧ (∃ rest, berth.freeList = 2 :: rest) ∧ berth.craneCount < 64 ∧
    (berth.headRec 2).load < (berth.headRec 2).capacity ∧ noFields.admitSlots ≤ berth.freeCount 2 := by
  refine ⟨ready_berth 0, by decide, by decide, by decide, by decide, fun c => by cases c <;> simp [FieldSet.Belongs, noFields], by decide, by decide, by decide,
    ⟨(List.finRange 2048).drop 3, by decide +kernel⟩, by decide, by decide, by decide⟩

theorem witness_RetirementFreesTheContext :
    berth.Ready 0 ∧ 2047 < (2048 : Half).toNat ∧ ctxOf 2047 = some 2047 ∧ ctxOf 0 = some 0 ∧
    (berth.ctx 2047).state = .free ∧ (holding.chan 3).state = .idle ∧ (holding.ctx 0).state ≠ .free ∧
    (holding.ctx 0).holder = some 0 ∧ (0 : ChanNum) ≠ 3 ∧ (berth.ctx 0).holder = none := ⟨ready_berth 0, by decide +kernel⟩

theorem witness_TagsNameOneContext :
    (berth.ctx 1).state ≠ .free ∧ berth.resolve 1 = some 1 ∧ berth.resolve 2049 = none ∧ berth.tag 1 = berth.tag 1 := by decide

theorem witness_FindLooksTheIdentityUp :
    berth.Ready 0 ∧ berth.IdMapLawful ∧ (berth.ctx 1).state ≠ .free ∧ (berth.ctx 1).identity = some 71 ∧
    ∀ n, (berth.ctx n).state ≠ .free → (berth.ctx n).identity ≠ some 99 := by
  refine ⟨ready_berth 0, berth_idMap, by decide, by decide, fun n _ => ?_⟩
  rw [berth_ctx]
  split
  · decide
  · split <;> decide

theorem witness_ReadShowsTheRecord :
    berth.Ready 0 ∧ 2047 < (2048 : Half).toNat ∧ ctxOf 2047 = some 2047 ∧ (berth.ctx 2047).state = .free ∧
    ctxOf 0 = some 0 ∧ (berth.ctx 0).state ≠ .free := ⟨ready_berth 0, by decide +kernel⟩

theorem witness_FieldSetsAreChecked :
    berth.Ready 0 ∧ 2047 < (2048 : Half).toNat ∧ ctxOf 0 = some 0 ∧ (berth.ctx 2).state = .free ∧
    (holding.ctx 0).holder = some 0 ∧ (0 : ChanNum) ≠ 2 ∧ (berth.chan 0).held ≠ some 0 ∧ (holding.chan 0).held = some 0 ∧
    (berth.ctx 0).cls = some .crane ∧ ¬ FieldSet.Belongs { noFields with band := some 1 } .crane ∧
    FieldSet.Belongs { noFields with slotCount := some 4 } .crane ∧ (moving.ctx 0).state = .moving ∧
    clamp 1 4 (4 : Byte).toNat ≠ (moving.ctx 0).slotNeed ∧ (berth.ctx 0).serving = some 2 ∧
    (berth.ctx 0).slotNeed < clamp 1 4 (4 : Byte).toNat ∧
    (berth.setPlan 2 (Vector.replicate 32 (.active 0))).freeCount 2 < clamp 1 4 (4 : Byte).toNat - (berth.ctx 0).slotNeed := by
  refine ⟨ready_berth 0, by decide, by decide, by decide, by decide, by decide, by decide, by decide, by decide,
    by simp [FieldSet.Belongs], by simp [FieldSet.Belongs, noFields], by decide, by decide, by decide, by decide, by decide⟩

theorem witness_OwnerAndReeferProfileAreWritten :
    berth.Ready 0 ∧ ctxOf 1 = some 1 ∧ (berth.ctx 1).state ≠ .free ∧ (berth.ctx 1).cls = some .reefer ∧
    FieldSet.Belongs { noFields with period := some 15 } .reefer ∧ (berth.ctx 1).crane = none ∧
    (berth.ctx 1).holder = none ∧ (berth.ctx 1).reefer = some part ∧ part.due ≠ none ∧
    max 15 (min 3600 (15 : Half).toNat) ≠ part.period ∧ max 15 (min 3600 (300 : Half).toNat) = part.period ∧
    ((berth.setChan 0 { Channel.reset with held := some 1 }).chan 0).held = some 1 ∧
    (berth.setChan 0 { Channel.reset with held := some 1 }).Ready 0 := by
  refine ⟨ready_berth 0, by decide, by decide, by decide, by simp [FieldSet.Belongs, noFields], by decide, by decide, by decide, by decide,
    by decide, by decide, by decide, rfl, by decide⟩

theorem witness_SlotCountMovesTheCranesSlots :
    berth.Ready 0 ∧ holding.Ready 0 ∧ ctxOf 0 = some 0 ∧ (berth.ctx 0).state ≠ .free ∧ (berth.ctx 0).cls = some .crane ∧
    (berth.ctx 0).crane = some ⟨2, none⟩ ∧ (berth.ctx 0).reefer = none ∧ noFields.Belongs .crane ∧
    (berth.ctx 0).serving = some 2 ∧ berth.inService 2 = true ∧ (berth.ctx 0).state ≠ .moving ∧
    4 - 2 ≤ berth.freeCount 2 ∧ (berth.ctx 0).holder = none ∧ (holding.chan 0).held = some 0 := by
  refine ⟨ready_berth 0, ⟨rfl, by decide⟩, by decide, by decide, by decide, by decide, by decide, by simp [FieldSet.Belongs, noFields], by decide, by decide,
    by decide, by decide, by decide, by decide⟩

theorem witness_FetchGrantsOrParks :
    berth.Ready 0 ∧ holding.Ready 2 ∧ holding.Ready 0 ∧ 2047 < (2048 : Half).toNat ∧ ctxOf 0 = some 0 ∧
    (holding.chan 0).held ≠ none ∧ (berth.chan 0).held = none ∧ (berth.ctx 2).state = .free ∧ (berth.ctx 0).holder = none ∧
    (berth.ctx 0).state ≠ .free ∧ (holding.chan 2).held = none ∧ (holding.ctx 0).holder ≠ none := ⟨ready_berth 0, ⟨rfl, by decide⟩, ⟨rfl, by decide⟩, by decide⟩

theorem witness_HoldsPassInOrder :
    holding.Ready 0 ∧ 2047 < (2048 : Half).toNat ∧ ctxOf 0 = some 0 ∧ (holding.chan 0).held = some 0 ∧
    (berth.chan 0).held ≠ some 0 ∧ berth.wait 0 = [] ∧ holding.wait 0 = 1 :: [] := ⟨⟨rfl, by decide⟩, by decide⟩

theorem witness_ChannelDeadlinesAndCancel :
    holding.resetLow = false ∧ (holding.chan 0).held = some 0 ∧
    expired 50 (holding.chan 0).holdAt = true ∧ expired 49 (holding.chan 0).holdAt = false ∧
    (holding.chan 1).parkedOn = some 0 ∧ expired 60 (holding.chan 1).parkAt = true ∧
    expired 59 (holding.chan 1).parkAt = false ∧ (holding.chan 1).state = .parked ∧ (holding.chan 2).held = none ∧
    (holding.chan 2).parkedOn = none ∧ (sweeping.chan 2).state = .sweeping ∧ expired 50 (sweeping.chan 2).idleAt = true ∧
    expired 49 (sweeping.chan 2).idleAt = false ∧ (sweeping.chan 0).state = .idle := by decide

/-- Every context number in use by a GENERAL terminal. -/
def crowded : State :=
  { State.reset with contexts := Vector.replicate 2048 { Context.freeIn 0 with
      state := .active, identity := some 1, cls := some .general, serving := some 2 } }

def anything : SweepFilter :=
  ⟨⟨true, true, true⟩, ⟨true, true, true, true⟩, ⟨false, false, false, false⟩, none⟩

def matching (s : State) (cursor : CtxNum) : List CtxNum :=
  (List.finRange 2048).filter fun n => decide (cursor ≤ n) && anything.accepts (s.ctx n)

theorem witness_SweepBlocksHoldTheFirstSixteen :
    (matching crowded 2033).length < 16 ∧ (matching crowded 2031)[15]? = some 2046 ∧
      (matching crowded 2032)[15]? = some 2047 ∧ (2046 : CtxNum).val + 1 < 2048 := by decide +kernel

theorem witness_SweepsRunOnTheirChannel :
    berth.resetLow = false ∧ (berth.chan 0).state = .idle ∧ 7 < (8 : Byte).toNat ∧ 15 < (16 : Byte).toNat ∧ (16 : Byte) ≠ 0xFF ∧
    (7 : Byte).toNat ≤ 7 ∧ (15 : Byte).toNat ≤ 15 ∧ (15 : Byte).toNat = (15 : HeadNum).val ∧
    (sweeping.chan 2).state = .sweeping ∧ ∃ w, (sweeping.chan 2).sweep = some w := ⟨rfl, by decide, by decide, by decide, by decide, by decide, by decide, by decide, by decide, ⟨anything, 1⟩, by decide⟩

theorem witness_HeadsAreSetReadAndEnabled :
    berth.Ready 0 ∧ 15 < (16 : Byte).toNat ∧ 2 < (3 : Byte).toNat ∧ headOf 15 = some 15 ∧ sideOf 2 = some .landside ∧
    (berth.headRec 15).link ≠ .standby ∧ (berth.headRec 3).floor = none ∧ (berth.headRec 3).link = .standby ∧
    ((berth.setHead 3 { settled with floor := some 40 }).headRec 3).floor ≠ none := ⟨ready_berth 0, by decide⟩

theorem witness_DisabledHeadsAreWithdrawn :
    berth.Ready 0 ∧ 15 < (16 : Byte).toNat ∧ headOf 15 = some 15 ∧ (berth.headRec 15).link ≠ .inService ∧
      headOf 2 = some 2 ∧ (berth.headRec 2).link = .inService := ⟨ready_berth 0, by decide⟩

theorem witness_LinkLossMakesTheHeadAbsent :
    berth.resetLow = false ∧ (berth.headRec 0).link = .absent ∧ expired 29 (berth.headRec 2).silenceAt = false ∧
    (berth.headRec 2).link ≠ .absent ∧ expired 30 (berth.headRec 2).silenceAt = true ∧ (berth.headRec 2).survey = .idle ∧
    ((berth.setHead 2 { served with survey := .running }).headRec 2).survey = .running := by decide

theorem witness_WithdrawalSettlesEveryContext :
    (berth.ctx 2).state = .free ∧ (berth.ctx 0).state = .active ∧ (berth.ctx 0).serving = some 2 ∧
    (moving.ctx 0).state = .moving ∧ (moving.ctx 0).target = some 5 ∧ (moving.ctx 0).serving = some 2 ∧
    Context.orphanedBy 2 (berth.ctx 1) = true ∧ (∀ m, Context.orphanedBy 2 (berth.ctx m) = true → m ≤ 1) ∧
    Context.failedBy 5 (moving.ctx 0) = true ∧ (∀ n, Context.failedBy 2 (berth.ctx n) = false) := by
  refine ⟨by decide, by decide, by decide, by decide, by decide, by decide, by decide, fun m h => ?_, by decide, fun n => ?_⟩
  · rw [berth_ctx] at h
    split at h
    · rename_i e; subst e; decide
    · split at h
      · rename_i e; subst e; decide
      · exact absurd h (by decide)
  · rw [berth_ctx]
    split
    · decide
    · split <;> decide

theorem witness_SurveysMeasureTheFloor :
    berth.Ready 0 ∧ headOf 3 = some 3 ∧ (berth.headRec 0).link = .absent ∧ (berth.headRec 3).link = .standby ∧
    (berth.headRec 2).link = .inService ∧ (berth.headRec 2).survey ≠ .running ∧
    expired 100 (some 100) = true ∧ expired 99 (some 100) = false ∧ (berth.headRec 3).admin = .enabled ∧
    (berth.headRec 3).samples = 0 ∧
    ((berth.setHead 3 { settled with survey := .running, surveyEnd := some 100, samples := 1 }).headRec 3).samples ≠ 0 := ⟨ready_berth 0, by decide⟩

/-- The berth with a frame of head 0 that was counted as it arrived, and that waits while its link was lost. -/
def waiting : State := { berth with counted := berth.counted.set 0 1 }

theorem witness_HeadsAreHeard :
    berth.resetLow = false ∧ ((berth.hearing 2).headRec 2).survey = .idle ∧
    ((berth.hearing 2).headRec 2).floor = some 40 ∧ ((berth.hearing 2).headRec 2).idle = some 320 ∧
    ((berth.hearing 0).headRec 0).floor = none ∧
    ¬ 8 * berth.params.driftLimit < (384 - 8 * 40 : Int).natAbs ∧ 8 * berth.params.driftLimit < (385 - 8 * 40 : Int).natAbs ∧
    ((berth.hearing 2).headRec 2).resurvey = false ∧ ((berth.hearing 0).headRec 0).link = .settling ∧
    expired 100 ((berth.hearing 0).headRec 0).settleAt = true ∧ expired 99 ((berth.hearing 0).headRec 0).settleAt = false ∧
    ((waiting.hearing 0).headRec 0).link = .absent ∧ (waiting.hearing 0).counted[0] = 0 := by decide

theorem witness_ContactsRunTheirStages :
    berth.resetLow = false ∧ berth.resolve 2048 = none ∧ berth.resolve 0 = some 0 ∧ berth.inService 3 = false ∧
    berth.inService 2 = true ∧ waiting.inService 0 = false ∧ ((waiting.hearing 0).headRec 0).link = .absent ∧
    ((berth.hearing 0).headRec 0).link = .settling := by decide

theorem witness_VerdictsFollowTheState :
    (berth.ctx 0).state = .active ∧ (berth.ctx 0).serving = some 2 ∧ (moving.ctx 0).state = .moving ∧
    (moving.ctx 0).target = some 5 ∧ (moving.ctx 0).serving = some 2 ∧
    ((berth.setCtx 0 { crane with state := .silent }).ctx 0).state = .silent ∧
    ((berth.setCtx 0 { crane with state := .orphan, serving := none }).ctx 0).state = .orphan ∧
    (berth.headRec 5).load < (berth.headRec 5).capacity ∧ (berth.ctx 0).slotNeed ≤ berth.freeCount 5 ∧
    ¬ (berth.ctx 0).slotNeed ≤ (berth.setPlan 5 (Vector.replicate 32 (.active 0))).freeCount 5 := by decide

theorem witness_ContextsEnterActive :
    (berth.ctx 0).PartsLawful ∧ (berth.ctx 0).cls = some .crane ∧ (berth.ctx 1).PartsLawful ∧
    (berth.ctx 1).cls = some .reefer ∧ berth.inService 5 = true := by
  refine ⟨?_, by decide, ?_, by decide, by decide⟩
  · rw [berth_ctx]; simp [Context.PartsLawful, crane, Context.freeIn]
  · rw [berth_ctx]; simp [Context.PartsLawful, reefer, Context.freeIn]

theorem witness_ConfirmationMovesTheContext :
    (moving.ctx 0).serving ≠ some 5 ∧ (moving.ctx 0).cls = some .crane ∧ (berth.ctx 1).cls ≠ some .crane := by decide

theorem witness_QualityUpdateWritesTheEntry :
    (berth.headRec 2).floor = some 40 ∧ (berth.ctx 0).EntriesLawful ∧ (∃ e ∈ (berth.ctx 0).entries, e.head = 2) ∧
    (∀ e ∈ (berth.ctx 0).entries, e.head ≠ 5) := ⟨by decide, berth_entries 0, ⟨entryOf 2 304, by decide⟩, by decide⟩

theorem witness_VictimsGiveWayInOrder :
    ([entryOf 2 200, entryOf 4 150, entryOf 11 90].Pairwise fun y z => y.head ≠ z.head) ∧
    victim 30000 (some 2) none [entryOf 2 200, entryOf 4 150, entryOf 11 90] = some (entryOf 11 90) := by decide

theorem witness_FilterStaysInRange :
    (-512 : Int) ≤ -512 ∧ (1016 : Int) ≤ 1016 ∧ (-64 : Int) ≤ -64 ∧ (127 : Int) ≤ 127 ∧ filterStep 1010 127 3 = 1010 := by decide

theorem witness_MarksPositionsAndLossDeadlines :
    berth.resetLow = false ∧ (berth.ctx 1).crane = none ∧ (berth.ctx 0).crane = some ⟨2, none⟩ ∧
    (berth.ctx 0).cls = some .crane ∧ (berth.ctx 0).state = .active ∧ (moving.ctx 0).state = .moving ∧
    (berth.ctx 1).cls ≠ some .crane := by decide

theorem witness_EvaluationCountsAndChooses :
    (moving.ctx 0).state ≠ .active ∧ (berth.ctx 0).state = .active ∧ (berth.ctx 0).serving = some 2 ∧
    entryOf 2 304 ∈ (berth.ctx 0).entries ∧ (entryOf 2 304).head = 2 ∧ (berth.ctx 0).cls = some .crane ∧
    ((berth.ctx 0).entries.Pairwise fun y z => y.head < z.head) := by decide

/-- A candidate that leads by the hysteresis and stands one below the trigger target is chosen. -/
theorem witness_EvaluationCountsAndChooses_start :
    let s := berth.setCtx 0 { crane with entries := [entryOf 2 304, { entryOf 5 328 with count := 1 }] }
    ((s.evaluate 0).ctx 0).target = some 5 ∧ ((s.evaluate 0).ctx 0).state = .moving := by decide +kernel

/-- The withdrawal of its target leaves the crane ACTIVE and awaiting its serving head; a contact from that head clears
the mark (R63). -/
theorem witness_EvaluationCountsAndChooses_reopened :
    let c := (moving.ctx 0).withdrawn 5 0
    let s := berth.setCtx 0 c
    c.state = .active ∧ c.serving = some 2 ∧ c.awaitsServing = true ∧ (berth.ctx 0).awaitsServing = false ∧
    (s.ctx 0).awaitsServing = true ∧ ((s.evaluateAt 2 0).ctx 0).awaitsServing = false := by decide +kernel

/-- R99: a contact from another head evaluates a context that awaits its serving head (log 20). -/
theorem test_evaluateAt_other_head :
    let s := berth.setCtx 0 { crane with awaitsServing := true, entries := [entryOf 2 304, entryOf 5 328] }
    (s.ctx 0).serving ≠ some 5 ∧ (s.ctx 0).awaitsServing = true ∧
    ((s.evaluateAt 5 0).ctx 0).entries = [entryOf 2 304, { entryOf 5 328 with count := 1 }] := by decide +kernel

theorem witness_HandoverStartsWithItsOrder :
    berth.inService 2 = true ∧ berth.inService 5 = true ∧ (2 : HeadNum) ≠ 5 ∧ (berth.ctx 0).cls = some .crane := by decide

/-- The berth with a zone window from 12288 on and the crane at its last position. -/
def zoned : State :=
  { berth with
    zones := berth.zones.set 2 ⟨true, 12288, 3, #v[some 3, some 5, some 5, some 7]⟩
    contexts := berth.contexts.set 0 { crane with crane := some ⟨2, some 14335⟩ }
    vessels := berth.vessels.set 0 ⟨true, 13000, 1500⟩
    heads := berth.heads.set 2 { served with side := .waterside, position := some 14499 } }

theorem witness_PreferredHeadsAndShadows :
    zoned.ZonesLawful ∧ (zoned.ctx 0).crane = some ⟨2, some 14335⟩ ∧ (zoned.zone 2).enabled = true ∧
    (zoned.zone 2).base.toNat ≤ 14335 ∧ 14335 ≤ (zoned.zone 2).base.toNat + 256 * 2 ^ (zoned.zone 2).sizeCode.val - 1 ∧
    zoned.preferred 0 = some 7 ∧ (berth.ctx 0).crane = some ⟨2, none⟩ ∧ zoned.shadowed 2 = true := by
  refine ⟨⟨by decide, fun v w ne hv hw => ?_⟩, by decide⟩
  have only : ∀ v : Fin 8, (zoned.zone v).enabled = true → v = 2 := by decide
  exact absurd ((only v hv).trans (only w hw).symm) ne

theorem witness_ConfirmationDeadlineFailsTheHandover :
    moving.resetLow = false ∧ (berth.ctx 0).state ≠ .moving ∧ expired 59 (moving.ctx 0).confirmAt = false ∧
    (moving.ctx 0).state = .moving ∧ expired 60 (moving.ctx 0).confirmAt = true ∧ (moving.ctx 0).target = some 5 ∧
    moving.inService 5 = true ∧ (moving.ctx 0).serving ≠ none ∧
    ((moving.setCtx 0 { moving.ctx 0 with serving := none }).ctx 0).serving = none := by decide

theorem witness_ContextsFallSilent :
    berth.resetLow = false ∧ (berth.ctx 0).target = none ∧ (berth.ctx 0).confirmAt = none ∧ (berth.ctx 0).state = .active ∧
    expired 120 (berth.ctx 0).lossAt = true ∧ expired 119 (berth.ctx 0).lossAt = false ∧
    ({ berth with clock := 330000 } : State).lateReefer = some 1 ∧
    ({ berth with clock := 329999 } : State).lateReefer = none ∧ (berth.ctx 1).state = .active ∧
    (moving.ctx 0).state = .moving ∧ (moving.ctx 0).target = some 5 ∧ moving.inService 5 = true ∧
    (moving.ctx 0).cls = some .crane ∧ expired 120 (moving.ctx 0).lossAt = true ∧
    (({ berth with clock := 330000 } : State).setCtx 1 { reefer with state := .moving, target := some 5 }).lateReefer = some 1 ∧
    ((berth.setCtx 0 { crane with state := .orphan, orphanAt := some 9 }).ctx 0).orphanAt = some 9 := by decide

theorem witness_ReportsAreTakenIn :
    (berth.ctx 0).reefer = none ∧ (berth.ctx 1).reefer = some part ∧ part.lastSeq ≠ some 0 ∧
      ({ part with lastSeq := some 0 } : ReeferPart).lastSeq = some 0 ∧ part.due ≠ none := by decide

theorem witness_DueListStaysInOrder :
    (berth.ctx 1).due = some 300000 ∧ (2 : CtxNum) ∉ berth.dueList ∧
    berth.dueList.Pairwise (fun a b => berth.dueBefore a b = true) ∧ ((300000 : Time) - 0).toNat < 2 ^ 31 := by decide

theorem witness_ZoneWindowsAreChecked :
    berth.Ready 0 ∧ 7 < (8 : Byte).toNat ∧ 1 < (2 : Byte).toNat ∧ 15 < (16 : Byte).toNat ∧ (16 : Byte) ≠ 0xFF ∧
    headChoiceOf 15 = some (some 15) ∧ headChoiceOf 0xFF = some none ∧
    (12289 : Half).toNat % (256 * 2 ^ 3) ≠ 0 ∧ (12288 : Half).toNat % (256 * 2 ^ 3) = 0 ∧ 12288 + 256 * 2 ^ 3 ≤ 65536 ∧
    (zoned.zone 2).enabled = true ∧ (zoned.zone 2).holds 14335 = true ∧ (zoned.zone 2).holds 14336 = false := ⟨ready_berth 0, by decide⟩

theorem witness_WindowsAndPlansAreRead :
    berth.Ready 0 ∧ 7 < (8 : Byte).toNat ∧ (7 : Byte).toNat = (7 : Fin 8).val ∧ 3 < (4 : Byte).toNat ∧
    (3 : Byte).toNat = (3 : Fin 4).val ∧ 15 < (16 : Byte).toNat ∧ (15 : Byte).toNat = (15 : HeadNum).val ∧
    1 < (2 : Byte).toNat ∧ (1 : Byte) = if true then 1 else 0 := ⟨ready_berth 0, by decide⟩

theorem witness_ParametersAreClamped :
    berth.Ready 0 ∧ paramOf 4 2 = some (.perClass .bonus .general) ∧ paramOf 4 3 = none ∧ paramOf 5 0 = none ∧
    paramOf 10 0xFF = some (.single .driftLimit) ∧ paramOf 11 0xFF = none := ⟨ready_berth 0, by decide⟩

/-- The berth with two classes pending at the same level. -/
def alarmed : State := (berth.raise .headState (.head 6)).raise .reeferCondition (.context 1)

theorem witness_EventsAreReadByLevel :
    alarmed.Ready 0 ∧ berth.Ready 0 ∧ (alarmed.eventRec .headState).pending = true ∧
    (alarmed.eventRec .headState).masked = false ∧ alarmed.chosenEvent = some .headState ∧
    (alarmed.eventRec .headState).level = (alarmed.eventRec .reeferCondition).level ∧ berth.chosenEvent = none ∧
    8 < (9 : Byte).toNat ∧ (8 : Byte).toNat = EventClass.headProtocol.num.val := ⟨⟨rfl, by decide⟩, ready_berth 0, by decide⟩

theorem witness_ClockAndDeadlines :
    berth.resetLow = false := rfl

theorem witness_FlushEmptiesTheStore :
    holding.Ready 3 ∧ (holding.chan 1).state = .parked := ⟨⟨rfl, by decide⟩, by decide⟩

theorem witness_LawsThatStepsKeep :
    berth.Lawful ∧ berth.DueListOrdered ∧ ∃ t, step { berth with pending := [.partClockTick] } = .next t := ⟨berth_lawful, List.pairwise_singleton _ _, ⟨_, rfl⟩⟩

/-- The premises of the clauses on frames that arrive: the lawful berth, with a head that is heard and one that is ABSENT. -/
theorem witness_RecordsOfTheQuayStayLawful :
    berth.Lawful ∧ berth.HeadsLawful ∧ (berth.headRec 2).link ≠ .absent ∧ (berth.headRec 6).link = .absent :=
  ⟨berth_lawful, berth_heads, by decide⟩

/-- R46: a keepalive that arrives from an ABSENT head starts its settling time and its silence time. -/
theorem test_receiveHead_absent :
    let t := berth.receiveHead 6 (frame [0x01, 0, 0])
    (t.headRec 6).link = .settling ∧ (t.headRec 6).settleAt.isSome = true ∧ (t.headRec 6).silenceAt.isSome = true := by
  decide +kernel

theorem witness_FramesCarryCommands :
    (Instr.find 0 (.fields 71)).wf = true ∧
      encodeCommand (.find 0 (.fields 71)) = some (.control, [0, 3, 0, 0, 0, 0, 0, 0, 0, 71]) ∧
    (0x00#8 ≠ 0xA5#8 ∧ (0x00#8).toNat = 0 ∧ 250 < (0xFB#8).toNat ∧ 1 ≤ (0x01#8).toNat ∧ (0xFA#8).toNat ≤ 250) ∧
    ([0x00#8, 0x1A#8].length < (0x01#8).toNat + 2 ∧ [0x00#8].length = (0x01#8).toNat) ∧
    ((0x03#8 = 0x03#8 → [0x00#8].length ≠ 13) ∧ 1 < (0x02#8).toNat ∧ 3 < (0x04#8).toNat ∧ 7 < (0x08#8).toNat) ∧
    berth.resetLow = false := by decide +kernel

/-- The bounds of the clauses on requests: codes that are none, lengths beside the ones a request takes, flags, presence
bytes, kinds and masks at their ends. -/
theorem witness_FramesCarryCommands_requests :
    (0x00#8 ∉ Instr.requestCodes ∧ 0x0D#8 ∉ Instr.requestCodes ∧ 0xFF#8 ∉ Instr.requestCodes ∧ 0x24#8 ∈ Instr.requestCodes) ∧
    ([0x00#8] ≠ [] ∧ [0x00#8].length ≠ 2 ∧ ([] : List Byte).length ≠ 1 ∧ (List.replicate 9 0x00#8).length ≠ 8) ∧
    ((0x07#8).toNat ≤ 7 ∧ (0x00#8, ReportKind.periodic) ∈ [(0x00#8, ReportKind.periodic)]) ∧
    ((List.replicate 11 0x00#8).length < 12 ∧ [0x00#8, 0x00#8].length < 3) ∧
    (31 < (0x20#8).toNat ∧ (0x1F#8).toNat ≤ 31 ∧ (0x00#8).toNat ≤ 31) ∧
    ((List.replicate 9 0x00#8).length = fieldPlace 0x1F 5 ∧ [0x00#8].length ≠ fieldPlace 0 5 ∧
      ([] : List Byte).length = fieldPlace 0 5 ∧ fieldPlace 0x1E 4 = 4) := by decide

/-- A field set is read field by field, in the order of its presence bits. -/
theorem test_fieldsAt :
    fieldsAt 0x15 [1, 2, 3, 4, 5, 6, 7] =
      { owner := some 0x01020304, slotCount := none, period := some 0x0506, band := none, rise := some 7 } := by decide

/-- UPDATE with a band, as R177 lays it out; with a presence bit that stands for no field it is refused for form. -/
theorem test_update_presence :
    frameCommand .control [0, 0x05, 0, 9, 0x08, 0x10] =
      .update 0 (.fields { context := 9, set := ⟨none, none, none, some 0x10, none⟩ }) ∧
    frameCommand .control [0, 0x05, 0, 9, 0x28, 0x10] = .update 0 .badForm := by decide

end Sys2Proof.Tests
end

section
/-! SUPPORT. The Context Store and the due list as the operations of the part see them: the five fields of the state that
hold them, the operations that leave these fields alone, and the operations that rewrite one record. -/

namespace Sys2Proof.Machine

open Sys2Proof

/-! ## The store of a state -/

/-- What the part keeps about contexts beyond heads, plans and channels: the records (R1), the due list (R150), the free
list (R10), the identity map (R9) and the crane count (R11). -/
structure Store where
  contexts   : Vector Context 2048
  dueList    : List CtxNum
  freeList   : List CtxNum
  idMap      : List (Identity × CtxNum)
  craneCount : Nat

def State.store (s : State) : Store := ⟨s.contexts, s.dueList, s.freeList, s.idMap, s.craneCount⟩

/-- Two states have one store when the five fields agree. -/
theorem State.store_eq_iff (s t : State) :
    t.store = s.store ↔ t.contexts = s.contexts ∧ t.dueList = s.dueList ∧ t.freeList = s.freeList ∧
      t.idMap = s.idMap ∧ t.craneCount = s.craneCount := by
  simp [State.store]

theorem State.ctx_of_store_eq {s t : State} (h : t.store = s.store) (n : CtxNum) : t.ctx n = s.ctx n := by
  rw [State.ctx, ((s.store_eq_iff t).1 h).1, State.ctx]

@[simp] theorem State.store_contexts_getElem (s : State) (n : CtxNum) : s.store.contexts[n] = s.ctx n := rfl

/-! ## Operations that leave the store alone -/

@[simp] theorem State.setChan_store (s : State) (ch : ChanNum) (c : Channel) : (s.setChan ch c).store = s.store := rfl
@[simp] theorem State.setChanState_store (s : State) (ch : ChanNum) (st : ChanState) :
    (s.setChanState ch st).store = s.store := rfl
@[simp] theorem State.setWait_store (s : State) (n : CtxNum) (l : List ChanNum) : (s.setWait n l).store = s.store := rfl
@[simp] theorem State.setHead_store (s : State) (h : HeadNum) (r : Head) : (s.setHead h r).store = s.store := rfl
@[simp] theorem State.setPlan_store (s : State) (h : HeadNum) (p : Plan) : (s.setPlan h p).store = s.store := rfl
@[simp] theorem State.setZone_store (s : State) (w : Fin 8) (z : ZoneWindow) : (s.setZone w z).store = s.store := rfl
@[simp] theorem State.setVessel_store (s : State) (w : Fin 4) (v : VesselWindow) : (s.setVessel w v).store = s.store := rfl
@[simp] theorem State.setEvent_store (s : State) (c : EventClass) (r : EventRec) : (s.setEvent c r).store = s.store := rfl
@[simp] theorem State.raise_store (s : State) (c : EventClass) (x : Subject) : (s.raise c x).store = s.store := rfl
@[simp] theorem State.raiseHighest_store (s : State) (c : EventClass) (n : Option CtxNum) :
    (s.raiseHighest c n).store = s.store := by cases n <;> rfl
@[simp] theorem State.answer_store (s : State) (ch : ChanNum) (echo : Byte) (r : Reply) :
    (s.answer ch echo r).store = s.store := rfl
@[simp] theorem State.finish_store (s : State) (ch : ChanNum) (echo : Byte) (r : Reply) :
    (s.finish ch echo r).store = s.store := rfl
@[simp] theorem State.addLoad_store (s : State) (h : HeadNum) : (s.addLoad h).store = s.store := rfl
@[simp] theorem State.subLoad_store (s : State) (h : HeadNum) : (s.subLoad h).store = s.store := rfl
@[simp] theorem State.unpark_store (s : State) (ch : ChanNum) : (s.unpark ch).store = s.store := rfl
@[simp] theorem State.sendHead_store (s : State) (h : HeadNum) (x : HeadMsg) : (s.sendHead h x).store = s.store := by
  simp [State.store]
@[simp] theorem State.setSlots_store (s : State) (h : HeadNum) (l : List SlotNum) (u : SlotUse) :
    (s.setSlots h l u).store = s.store := by
  simp [State.store]
@[simp] theorem State.reserveActive_store (s : State) (h : HeadNum) (n : CtxNum) (k : Nat) :
    (s.reserveActive h n k).store = s.store := State.setSlots_store ..
@[simp] theorem State.reservePending_store (s : State) (h : HeadNum) (n : CtxNum) (k : Nat) :
    (s.reservePending h n k).store = s.store := State.setSlots_store ..
@[simp] theorem State.freeActive_store (s : State) (h : HeadNum) (n : CtxNum) : (s.freeActive h n).store = s.store :=
  State.setSlots_store ..
@[simp] theorem State.freePending_store (s : State) (h : HeadNum) (n : CtxNum) : (s.freePending h n).store = s.store :=
  State.setSlots_store ..
@[simp] theorem State.activatePending_store (s : State) (h : HeadNum) (n : CtxNum) :
    (s.activatePending h n).store = s.store := State.setSlots_store ..

theorem State.onHead_store {f : State → HeadNum → State} (hf : ∀ s h, (f s h).store = s.store) (s : State)
    (h : Option HeadNum) : (s.onHead h f).store = s.store := by
  cases h with
  | none => rfl
  | some h => exact hf s h

theorem State.forCrane_store {f : State → State} (hf : ∀ s, (f s).store = s.store) (s : State) (n : CtxNum) :
    (s.forCrane n f).store = s.store := by
  unfold State.forCrane; split
  · exact hf s
  · rfl

/-- A change repeated along a list leaves the store alone when each change does. -/
theorem State.foldl_store {α : Type} {f : State → α → State} (hf : ∀ s x, (f s x).store = s.store) (l : List α) (s : State) :
    (l.foldl f s).store = s.store := by
  induction l generalizing s with
  | nil => rfl
  | cons x l ih => exact (ih _).trans (hf s x)

@[simp] theorem State.takeFrame_store (s : State) (h : HeadNum) : (s.takeFrame h).store = s.store := by
  rw [takeFrame_eq, State.hearing]; split <;> rfl

@[simp] theorem State.settle_store (s : State) (h : HeadNum) : (s.settle h).store = s.store := by
  unfold State.settle; dsimp only; split <;> simp

@[simp] theorem State.enterService_store (s : State) (h : HeadNum) : (s.enterService h).store = s.store := by
  unfold State.enterService; dsimp only; split <;> simp

@[simp] theorem State.surveyEnds_store (s : State) (h : HeadNum) : (s.surveyEnds h).store = s.store := by
  unfold State.surveyEnds; dsimp only
  split
  · split <;> simp
  · rfl

@[simp] theorem State.noiseSample_store (s : State) (h : HeadNum) (x : Byte) : (s.noiseSample h x).store = s.store := by
  unfold State.noiseSample; dsimp only
  split
  · simp
  · split
    · split <;> simp
    · rfl

@[simp] theorem State.keepalive_store (s : State) (h : HeadNum) (x : Option Byte) : (s.keepalive h x).store = s.store := by
  cases x <;> simp [State.keepalive]

@[simp] theorem State.headSet_store (s : State) (ch : ChanNum) (f : HeadSetFields) : (s.headSet ch f).store = s.store := by
  unfold State.headSet; split <;> simp

@[simp] theorem State.headEnable_store (s : State) (ch : ChanNum) (f : Byte) : (s.headEnable ch f).store = s.store := by
  unfold State.headEnable; split <;> simp

@[simp] theorem State.headRead_store (s : State) (ch : ChanNum) (f : Byte) : (s.headRead ch f).store = s.store := by
  unfold State.headRead; split <;> simp

@[simp] theorem State.surveyRequest_store (s : State) (ch : ChanNum) (f : SurveyFields) :
    (s.surveyRequest ch f).store = s.store := by
  unfold State.surveyRequest
  split
  · dsimp only; split <;> simp [State.startSurvey]
  · simp

@[simp] theorem State.zoneSet_store (s : State) (ch : ChanNum) (f : ZoneSetFields) : (s.zoneSet ch f).store = s.store := by
  unfold State.zoneSet
  split
  · split
    · simp
    · split <;> simp
  · simp

@[simp] theorem State.zoneRead_store (s : State) (ch : ChanNum) (f : Byte) : (s.zoneRead ch f).store = s.store := by
  unfold State.zoneRead; split <;> simp

@[simp] theorem State.vesselSet_store (s : State) (ch : ChanNum) (f : VesselSetFields) :
    (s.vesselSet ch f).store = s.store := by
  unfold State.vesselSet; split <;> simp

@[simp] theorem State.vesselRead_store (s : State) (ch : ChanNum) (f : Byte) : (s.vesselRead ch f).store = s.store := by
  unfold State.vesselRead; split <;> simp

@[simp] theorem State.planRead_store (s : State) (ch : ChanNum) (f : Byte) : (s.planRead ch f).store = s.store := by
  unfold State.planRead; split <;> simp

@[simp] theorem State.paramSet_store (s : State) (ch : ChanNum) (f : ParamSetFields) : (s.paramSet ch f).store = s.store := by
  unfold State.paramSet; split <;> rfl

@[simp] theorem State.paramRead_store (s : State) (ch : ChanNum) (f : ParamReadFields) :
    (s.paramRead ch f).store = s.store := by
  unfold State.paramRead; split <;> simp

@[simp] theorem State.eventRead_store (s : State) (ch : ChanNum) : (s.eventRead ch).store = s.store := by
  unfold State.eventRead; split <;> simp

@[simp] theorem State.eventSetup_store (s : State) (ch : ChanNum) (f : EventSetupFields) :
    (s.eventSetup ch f).store = s.store := by
  unfold State.eventSetup; split <;> simp

@[simp] theorem State.findRequest_store (s : State) (ch : ChanNum) (id : Identity) : (s.findRequest ch id).store = s.store := by
  unfold State.findRequest; split <;> simp

@[simp] theorem State.readRequest_store (s : State) (ch : ChanNum) (f : Half) : (s.readRequest ch f).store = s.store := by
  unfold State.readRequest
  split
  · simp
  · split <;> simp

@[simp] theorem State.park_store (s : State) (ch : ChanNum) (n : CtxNum) : (s.park ch n).store = s.store := rfl

@[simp] theorem State.leaveWait_store (s : State) (ch : ChanNum) (n : CtxNum) (r : Reply) :
    (s.leaveWait ch n r).store = s.store := rfl

@[simp] theorem State.parkDeadline_store (s : State) (ch : ChanNum) : (s.parkDeadline ch).store = s.store := by
  unfold State.parkDeadline
  split
  · split <;> simp
  · rfl

@[simp] theorem State.cancelRequest_store (s : State) (ch : ChanNum) (b : Body Unit) :
    (s.cancelRequest ch b).store = s.store := by
  unfold State.cancelRequest
  split
  case h_4 => split <;> simp
  all_goals simp

@[simp] theorem State.answerBlock_store (s : State) (ch : ChanNum) (code : Byte) (w : Sweep) :
    (s.answerBlock ch code w).store = s.store := by
  unfold State.answerBlock; dsimp only; split <;> simp

@[simp] theorem State.sweepRequest_store (s : State) (ch : ChanNum) (f : SweepFields) :
    (s.sweepRequest ch f).store = s.store := by
  unfold State.sweepRequest; split <;> simp

@[simp] theorem State.continueRequest_store (s : State) (ch : ChanNum) : (s.continueRequest ch).store = s.store := by
  unfold State.continueRequest; split <;> simp

@[simp] theorem State.stopRequest_store (s : State) (ch : ChanNum) : (s.stopRequest ch).store = s.store := rfl

@[simp] theorem State.idleDeadline_store (s : State) (ch : ChanNum) : (s.idleDeadline ch).store = s.store := by
  unfold State.idleDeadline; split
  · rfl
  · rfl

@[simp] theorem State.answerOpenEcho_store (s : State) (ch : ChanNum) : (s.answerOpenEcho ch).store = s.store := rfl

@[simp] theorem State.tick_store (s : State) : s.tick.store = s.store := rfl

@[simp] theorem State.transmit_store (s : State) : s.transmit.store = s.store := rfl

@[simp] theorem State.cancelParked_store (s : State) (ch : ChanNum) : (s.cancelParked ch).store = s.store := by
  refine State.foldl_store (fun s c => ?_) _ s
  split <;> simp

@[simp] theorem State.clearPlans_store (s : State) : s.clearPlans.store = s.store :=
  State.foldl_store (fun s h => State.sendHead_store s h _) _ s

@[simp] theorem State.answerGone_store (s : State) (n : CtxNum) : (s.answerGone n).store = s.store :=
  State.foldl_store (f := fun s c => (s.answer c fetchCode .gone).unpark c) (fun _ _ => rfl) (s.wait n) s

/-! ## Taking a command -/

theorem State.whileRunning_rel {R : Store → Store → Prop} (refl : ∀ a, R a a) {f : State → State} {s : State}
    (hf : R s.store (f s).store) : R s.store (s.whileRunning f).store := by
  unfold State.whileRunning; split
  · exact refl _
  · exact hf

/-- What a request can do to the store is what its owner can do. -/
theorem State.takeRequest_rel {R : Store → Store → Prop} (refl : ∀ a, R a a) {α : Type} {run : α → State → State}
    (hrun : ∀ f s, R s.store (run f s).store) (s : State) (ch : ChanNum) (code : Byte) (b : Body α) :
    R s.store (s.takeRequest ch code b run).store := by
  rw [State.takeRequest_cases]
  split
  · exact refl _
  · split
    · cases b with
      | badForm => exact refl _
      | fields f => exact hrun f (s.setChanState ch .busy)
    · exact refl _

/-- A request whose owner leaves the store alone leaves it alone. -/
theorem State.takeRequest_store {α : Type} {run : α → State → State} (hrun : ∀ f s, (run f s).store = s.store) (s : State)
    (ch : ChanNum) (code : Byte) (b : Body α) : (s.takeRequest ch code b run).store = s.store :=
  State.takeRequest_rel (R := fun a b => b = a) (fun _ => rfl) hrun s ch code b

theorem State.takeOnSweeping_store {f : State → State} (hf : ∀ s, (f s).store = s.store) (s : State) (ch : ChanNum)
    (code : Byte) (b : Body Unit) : (s.takeOnSweeping ch code b f).store = s.store := by
  rw [State.takeOnSweeping_cases]
  split
  · rfl
  · split <;> simp [hf]

end Sys2Proof.Machine
end

section
/-! SUPPORT. How one context record may change in a step (R4, R142, R146), how the store changes when one record is rewritten,
and everything a step can do to the store. -/

namespace Sys2Proof.Machine

open Sys2Proof

/-! ## Due times (R150) -/

@[simp] theorem Context.withDue_none_due (c : Context) : (c.withDue none).due = none := by
  cases h : c.reefer <;> simp [Context.withDue, Context.due, h]

theorem Context.withDue_some_due {c : Context} (h : c.reefer.isSome = true) (t : Time) :
    (c.withDue (some t)).due = some t := by
  obtain ⟨r, hr⟩ := Option.isSome_iff_exists.1 h
  simp [Context.withDue, Context.due, hr]

@[simp] theorem Context.withDue_reefer_isSome (c : Context) (t : Option Time) :
    (c.withDue t).reefer.isSome = c.reefer.isSome := by
  simp [Context.withDue]

/-- A context without a reefer part has no due time. -/
theorem Context.due_eq_none {c : Context} (h : c.reefer = none) : c.due = none := by simp [Context.due, h]

theorem Context.lawful_iff_of_free {c : Context} (hs : c.state = .free) :
    c.Lawful ↔ c = { Context.freeIn c.gen with holder := c.holder } := by
  simp only [Context.Lawful, hs]

/-- A FREE record that obeys R4 has no class and no due time. -/
theorem Context.Lawful.of_free {c : Context} (h : c.Lawful) (hs : c.state = .free) : c.cls = none ∧ c.due = none := by
  rw [(Context.lawful_iff_of_free hs).1 h]; exact ⟨rfl, rfl⟩

theorem Context.Lawful.used_of_cls {c : Context} (h : c.Lawful) (hcls : c.cls.isSome = true) : c.state ≠ .free := by
  intro hs
  simp [(h.of_free hs).1] at hcls

/-- R1 to R3: a context in use that obeys R4 has its identity, its class and the class part of its class. -/
theorem Context.Lawful.parts {c : Context} (h : c.Lawful) (hs : c.state ≠ .free) : c.PartsLawful := by
  cases hst : c.state
  case free => exact absurd hst hs
  all_goals
    simp only [Context.Lawful, hst] at h
    exact h.1

/-- The ranges are those of the class parts, and a due time has none. -/
theorem Context.ValuesInRange.congr {c d : Context} (h : c.ValuesInRange) (hc : d.crane = c.crane)
    (hr : d.reefer = c.reefer ∨ ∃ t, d.reefer = (c.withDue t).reefer) : d.ValuesInRange := by
  obtain ⟨hcrane, hreefer⟩ := h
  refine ⟨fun p hp => hcrane p (hc ▸ hp), fun r hdr => ?_⟩
  rcases hr with hr | ⟨t, hr⟩
  · exact hreefer r (hr ▸ hdr)
  · rw [hr] at hdr
    obtain ⟨q, hq, rfl⟩ := Option.map_eq_some_iff.1 hdr
    exact hreefer q hq

/-! ## How one record may change -/

/-- A record turns into another that keeps to R4 and its ranges when the first does, in use or FREE as before, with the same
identity and class. -/
structure Context.LeadsTo (c d : Context) : Prop where
  lawful   : c.Lawful → d.Lawful
  values   : c.ValuesInRange → d.ValuesInRange
  free     : d.state = .free ↔ c.state = .free
  identity : d.identity = c.identity
  cls      : d.cls = c.cls

theorem Context.LeadsTo.refl (c : Context) : c.LeadsTo c := ⟨id, id, .rfl, rfl, rfl⟩

theorem Context.LeadsTo.trans {c d e : Context} (h : c.LeadsTo d) (k : d.LeadsTo e) : c.LeadsTo e :=
  ⟨k.lawful ∘ h.lawful, k.values ∘ h.values, k.free.trans h.free, k.identity.trans h.identity, k.cls.trans h.cls⟩

/-- The fields of a context in use that R4 couples to no state. -/
theorem Context.leadsTo_uncoupled {c d : Context} (used : c.Lawful → c.state ≠ .free)
    (hd : d = { c with owner := d.owner, entries := d.entries, holder := d.holder, awaitsServing := d.awaitsServing }) : c.LeadsTo d where
  lawful h := by
    rw [hd]
    cases hst : c.state
    case free => exact absurd hst (used h)
    all_goals simpa only [Context.Lawful, hst, Context.PartsLawful, Context.due] using h
  values h := h.congr (by rw [hd]) (.inl (by rw [hd]))
  free := by rw [hd]
  identity := by rw [hd]
  cls := by rw [hd]

/-- The holder is coupled to no state (R4). -/
theorem Context.leadsTo_holder (c : Context) (x : Option ChanNum) : c.LeadsTo { c with holder := x } where
  lawful h := by
    by_cases hst : c.state = .free
    · have freeRecord := (Context.lawful_iff_of_free hst).1 h
      exact (Context.lawful_iff_of_free (c := { c with holder := x }) hst).2
        (congrArg (fun d : Context => { d with holder := x }) freeRecord)
    · exact (Context.leadsTo_uncoupled (fun _ => hst) rfl).lawful h
  values h := h.congr rfl (.inl rfl)
  free := .rfl
  identity := rfl
  cls := rfl

/-- A class part may be replaced by another of the same class whose values are in range, and whose due time is present as
before. -/
theorem Context.leadsTo_parts {c d : Context}
    (hd : d = { c with crane := d.crane, reefer := d.reefer })
    (hcrane : d.crane.isSome = c.crane.isSome) (hreefer : d.reefer.isSome = c.reefer.isSome)
    (hdue : d.due.isSome = c.due.isSome) (values : c.ValuesInRange → d.ValuesInRange) : c.LeadsTo d where
  lawful h := by
    cases hst : c.state
    case free =>
      have hf := (Context.lawful_iff_of_free hst).1 h
      have hc : c.crane = none := by rw [hf]; rfl
      have hr : c.reefer = none := by rw [hf]; rfl
      have hc' : d.crane = none := by simpa [hc] using hcrane
      have hr' : d.reefer = none := by simpa [hr] using hreefer
      have : d = c := by rw [hd, hc', hr', ← hc, ← hr]
      rwa [this]
    all_goals
      have hs : d.state = c.state := by rw [hd]
      simp only [Context.Lawful, Context.PartsLawful, hs, hst, hcrane, hreefer, hdue, ← Option.not_isSome_iff_eq_none] at h ⊢
      rw [hd]; exact h
  values := values
  free := by rw [hd]
  identity := by rw [hd]
  cls := by rw [hd]

/-! ## One record rewritten -/

/-- R150, of a store: the due list holds each context with a due time exactly once, and nothing else. -/
def Store.InStep (a : Store) : Prop :=
  a.dueList.Nodup ∧ ∀ n : CtxNum, n ∈ a.dueList ↔ a.contexts[n].due.isSome = true

theorem State.inStep_iff (s : State) : s.store.InStep ↔ s.DueListLawful := Iff.rfl

/-- The record of one context becomes c, the due list follows, and the rest of the store stands. -/
structure Store.Rewrites (a b : Store) (n : CtxNum) (c : Context) : Prop where
  contexts   : b.contexts = a.contexts.set n c
  freeList   : b.freeList = a.freeList
  idMap      : b.idMap = a.idMap
  craneCount : b.craneCount = a.craneCount
  due        : a.InStep → b.InStep

theorem Store.Rewrites.refl (a : Store) (n : CtxNum) : a.Rewrites a n a.contexts[n] :=
  ⟨by simp, rfl, rfl, rfl, id⟩

theorem Store.Rewrites.trans {a b e : Store} {n : CtxNum} {c d : Context} (h : a.Rewrites b n c) (k : b.Rewrites e n d) :
    a.Rewrites e n d :=
  ⟨by rw [k.contexts, h.contexts, Vector.set_set], k.freeList.trans h.freeList, k.idMap.trans h.idMap,
    k.craneCount.trans h.craneCount, k.due ∘ h.due⟩

theorem Store.Rewrites.ctx {s t : State} {n : CtxNum} {c : Context} (h : s.store.Rewrites t.store n c) (m : CtxNum) :
    t.ctx m = if n = m then c else s.ctx m := by
  rw [← State.setCtx_ctx]
  show t.store.contexts[m] = _
  rw [h.contexts]; rfl

theorem Store.Rewrites.ctx_self {s t : State} {n : CtxNum} {c : Context} (h : s.store.Rewrites t.store n c) :
    t.ctx n = c := by simp [h.ctx]

theorem State.setCtx_rewrites {s : State} {n : CtxNum} {c : Context} (hdue : c.due.isSome = (s.ctx n).due.isSome) :
    s.store.Rewrites (s.setCtx n c).store n c := by
  refine ⟨rfl, rfl, rfl, rfl, fun h => ?_⟩
  obtain ⟨nodup, mem⟩ := (State.inStep_iff s).1 h
  refine (State.inStep_iff _).2 ⟨nodup, fun m => ?_⟩
  rw [State.setCtx_ctx, State.setCtx_dueList, mem m]
  split
  · next e => subst e; rw [hdue]
  · rfl

/-- A record without a due time is stored and its context leaves the due list. -/
theorem State.setCtx_off_due_rewrites {s : State} {n : CtxNum} {c : Context} (hdue : c.due = none) :
    s.store.Rewrites { s.setCtx n c with dueList := s.dueList.filter (· ≠ n) }.store n c := by
  refine ⟨rfl, rfl, rfl, rfl, fun h => ?_⟩
  obtain ⟨nodup, mem⟩ := (State.inStep_iff s).1 h
  refine (State.inStep_iff _).2 ⟨nodup.filter _, fun m => ?_⟩
  show m ∈ s.dueList.filter (· ≠ n) ↔ ((s.setCtx n c).ctx m).due.isSome = true
  rw [State.setCtx_ctx, List.mem_filter, mem m]
  by_cases e : n = m
  · simp [e, hdue]
  · simp [e, Ne.symm e]

theorem State.setDue_rewrites {s : State} {n : CtxNum} (hr : (s.ctx n).reefer.isSome = true) (t : Time) :
    s.store.Rewrites (s.setDue n t).store n ((s.ctx n).withDue (some t)) := by
  refine ⟨rfl, rfl, rfl, rfl, fun h => ?_⟩
  obtain ⟨nodup, mem⟩ := (State.inStep_iff s).1 h
  have fresh : n ∉ s.dueList.filter (· ≠ n) := by simp
  refine (State.inStep_iff _).2 ⟨nodup_insertDue _ fresh (nodup.filter _), fun m => ?_⟩
  show m ∈ insertDue _ n (s.dueList.filter (· ≠ n)) ↔ ((s.setCtx n ((s.ctx n).withDue (some t))).ctx m).due.isSome = true
  rw [State.setCtx_ctx, mem_insertDue, List.mem_filter, mem m]
  by_cases e : n = m
  · simp [e, Context.withDue_some_due (e ▸ hr)]
  · simp [e, Ne.symm e]

/-! ## Every record led on, the rest of the store standing -/

structure Store.Follows (a b : Store) : Prop where
  contexts   : ∀ n : CtxNum, a.contexts[n].LeadsTo b.contexts[n]
  freeList   : b.freeList = a.freeList
  idMap      : b.idMap = a.idMap
  craneCount : b.craneCount = a.craneCount
  due        : a.InStep → b.InStep

theorem Store.Follows.refl (a : Store) : a.Follows a := ⟨fun _ => .refl _, rfl, rfl, rfl, id⟩

theorem Store.Follows.of_eq {a b : Store} (h : b = a) : a.Follows b := h ▸ .refl a

theorem Store.Follows.trans {a b c : Store} (h : a.Follows b) (k : b.Follows c) : a.Follows c :=
  ⟨fun n => (h.contexts n).trans (k.contexts n), k.freeList.trans h.freeList, k.idMap.trans h.idMap,
    k.craneCount.trans h.craneCount, k.due ∘ h.due⟩

theorem Store.Rewrites.follows {s : State} {b : Store} {n : CtxNum} {c : Context} (h : s.store.Rewrites b n c)
    (hc : (s.ctx n).LeadsTo c) : s.store.Follows b := by
  refine ⟨fun m => ?_, h.freeList, h.idMap, h.craneCount, h.due⟩
  rw [h.contexts, Fin.getElem_fin, Fin.getElem_fin, Vector.getElem_set]
  split
  · next e => have : n = m := Fin.ext e
              subst this; exact hc
  · exact .refl _

end Sys2Proof.Machine
end

section
/-! SUPPORT. What the operations of holds, withdrawal, handover and silence do to a context record and to the store. -/

namespace Sys2Proof.Machine

open Sys2Proof

theorem Store.Rewrites.of_store_eq {a : Store} {s t : State} {n : CtxNum} {c : Context} (h : a.Rewrites s.store n c)
    (same : t.store = s.store) : a.Rewrites t.store n c := same ▸ h

/-- A record is rewritten on a state with the store of another. -/
theorem State.setCtx_rewrites_of {s r : State} (same : r.store = s.store) {n : CtxNum} {c : Context}
    (hdue : c.due.isSome = (s.ctx n).due.isSome) : s.store.Rewrites (r.setCtx n c).store n c := by
  rw [← same]
  exact State.setCtx_rewrites (by rw [State.ctx_of_store_eq same, hdue])

theorem State.setCtx_follows {s r : State} (same : r.store = s.store) {n : CtxNum} {c : Context}
    (hc : (s.ctx n).LeadsTo c) (hdue : c.due.isSome = (s.ctx n).due.isSome) :
    s.store.Follows (r.setCtx n c).store :=
  (State.setCtx_rewrites_of same hdue).follows hc

/-! ## Holds (R30 to R35) -/

theorem State.grantHold_follows (s : State) (n : CtxNum) (ch : ChanNum) : s.store.Follows (s.grantHold n ch).store :=
  State.setCtx_follows (s := s) rfl ((s.ctx n).leadsTo_holder (some ch)) rfl

theorem State.dropHold_follows (s : State) (n : CtxNum) (ch : ChanNum) : s.store.Follows (s.dropHold n ch).store :=
  State.setCtx_follows (s := s) rfl ((s.ctx n).leadsTo_holder none) rfl

theorem State.handOn_follows (s : State) (n : CtxNum) : s.store.Follows (s.handOn n).store := by
  rcases s.handOn_cases n with ⟨-, h⟩ | ⟨ch, rest, -, h⟩
  · rw [h]; exact .refl _
  · rw [h]; exact State.grantHold_follows ((s.setWait n rest).unpark ch) n ch

theorem State.fetchRequest_follows (s : State) (ch : ChanNum) (f : Half) : s.store.Follows (s.fetchRequest ch f).store := by
  unfold State.fetchRequest
  split
  · exact .refl _
  · next n _ =>
    split
    · exact .refl _
    · split
      · exact .refl _
      · split
        · exact s.grantHold_follows n ch
        · exact .refl _

theorem State.releaseRequest_follows (s : State) (ch : ChanNum) (f : Half) :
    s.store.Follows (s.releaseRequest ch f).store := by
  unfold State.releaseRequest
  split
  · exact .refl _
  · next n _ =>
    split
    · exact .refl _
    · exact (s.dropHold_follows n ch).trans (State.handOn_follows ((s.dropHold n ch).finish ch releaseCode .done) n)

theorem State.holdExpiry_follows (s : State) (ch : ChanNum) : s.store.Follows (s.holdExpiry ch).store := by
  unfold State.holdExpiry
  split
  · next n _ =>
    split
    · exact (s.dropHold_follows n ch).trans
        (State.handOn_follows ((s.dropHold n ch).raise .holdExpired (.context n)) n)
    · exact .refl _
  · exact .refl _

/-! ## Entering ORPHAN and SILENT (R5, R62) -/

theorem Context.PartsLawful.withDue {c : Context} (h : c.PartsLawful) (t : Option Time) : (c.withDue t).PartsLawful := by
  obtain ⟨identity, cls, crane, reefer⟩ := h
  exact ⟨identity, cls, crane, by rw [Context.withDue_reefer_isSome]; exact reefer⟩

@[simp] theorem Context.enterOrphan_due (c : Context) (t : Time) : (c.enterOrphan t).due = none :=
  Context.withDue_none_due c

/-- R4, R62: a context in use without a target that enters ORPHAN keeps to the table of ORPHAN. -/
theorem Context.enterOrphan_lawful {c : Context} (parts : c.PartsLawful) (target : c.target = none)
    (confirmAt : c.confirmAt = none) (cause : c.cause = none) (t : Time) : (c.enterOrphan t).Lawful :=
  ⟨parts.withDue none, rfl, target, confirmAt, rfl, cause, rfl, c.withDue_none_due⟩

theorem Context.enterOrphan_values {c : Context} (h : c.ValuesInRange) (t : Time) : (c.enterOrphan t).ValuesInRange :=
  h.congr rfl (.inr ⟨none, rfl⟩)

/-- The record that falls silent (R5). -/
def Context.silenced (c : Context) (cause : SilentCause) : Context :=
  { c.withDue none with state := .silent, cause := some cause, lossAt := none, orphanAt := none }

/-- R4, R5: a context in use without a target that falls silent keeps to the table of SILENT. -/
theorem Context.silenced_lawful {c : Context} (parts : c.PartsLawful) (target : c.target = none)
    (confirmAt : c.confirmAt = none) (cause : SilentCause) : (c.silenced cause).Lawful :=
  ⟨parts.withDue none, target, confirmAt, rfl, rfl, rfl, c.withDue_none_due⟩

theorem Context.silenced_values {c : Context} (h : c.ValuesInRange) (cause : SilentCause) :
    (c.silenced cause).ValuesInRange := h.congr rfl (.inr ⟨none, rfl⟩)

theorem State.fallSilent_rewrites (s : State) (n : CtxNum) (cause : SilentCause) :
    s.store.Rewrites (s.fallSilent n cause).store n ((s.ctx n).silenced cause) :=
  State.setCtx_off_due_rewrites (s.ctx n).withDue_none_due

theorem State.orphan_rewrites (s : State) (n : CtxNum) :
    s.store.Rewrites (s.orphan n).store n
      ((s.ctx n).enterOrphan (after s.clock (1000 * s.params.orphanLimit))) :=
  State.setCtx_off_due_rewrites ((s.ctx n).enterOrphan_due _)

/-! ## Withdrawal (R61 to R63) -/

/-- A context keeps its due time through a withdrawal unless the withdrawal orphans it. -/
theorem Context.withdrawn_due (c : Context) (h : HeadNum) (t : Time) :
    (c.withdrawn h t).due = if c.orphanedBy h then none else c.due := by
  have kept : ∀ d : Context, d.reefer = c.reefer → d.due = c.due := fun d e => by simp [Context.due, e]
  unfold Context.withdrawn Context.orphanedBy
  cases c.state <;> dsimp only
  case active => by_cases hs : c.serving = some h <;> simp [hs, kept]
  case moving =>
    by_cases ht : c.target = some h
    · by_cases hs : c.serving = none <;> simp [ht, hs, kept, Context.failHandover]
    · by_cases hs : c.serving = some h <;> simp [ht, hs, kept]
  case silent => by_cases hs : c.serving = some h <;> simp [hs, kept]
  all_goals simp [kept]

/-- R4, R61 to R63: a withdrawal leaves every record lawful. -/
theorem Context.leadsTo_withdrawn (c : Context) (h : HeadNum) (t : Time) : c.LeadsTo (c.withdrawn h t) := by
  have kept : c.state ≠ .free → c.LeadsTo { c with entries := c.entries.filter fun e => e.head ≠ h } :=
    fun used => Context.leadsTo_uncoupled (fun _ => used) rfl
  unfold Context.withdrawn
  cases hst : c.state <;> dsimp only
  case free => exact .refl c
  case orphan => exact hst ▸ kept (by simp [hst])
  case active =>
    split
    · refine ⟨fun hc => ?_, fun hv => Context.enterOrphan_values (hv.congr rfl (.inl rfl)) t, by simp [hst, Context.enterOrphan],
        rfl, rfl⟩
      simp only [Context.Lawful, hst] at hc
      obtain ⟨parts, -, target, confirmAt, -, cause, -⟩ := hc
      exact Context.enterOrphan_lawful (c := { c with entries := _ }) parts target confirmAt cause t
    · exact hst ▸ kept (by simp [hst])
  case moving =>
    split
    · split
      · refine ⟨fun hc => ?_, fun hv => Context.enterOrphan_values (hv.congr rfl (.inl rfl)) t,
          by simp [hst, Context.enterOrphan], rfl, rfl⟩
        simp only [Context.Lawful, hst] at hc
        obtain ⟨parts, -, -, -, cause, -⟩ := hc
        exact Context.enterOrphan_lawful (c := { c with entries := _, state := _, target := none, confirmAt := none })
          parts rfl rfl cause t
      · next serving =>
        refine ⟨fun hc => ?_, fun hv => hv.congr rfl (.inl rfl), by simp [hst, Context.failHandover], rfl, rfl⟩
        simp only [Context.Lawful, hst] at hc
        obtain ⟨parts, -, -, orphanAt, cause, lossAt, due⟩ := hc
        exact ⟨parts, Option.isSome_iff_ne_none.2 serving, rfl, rfl, orphanAt, cause, lossAt, due⟩
    · split
      · refine ⟨fun hc => ?_, fun hv => hv.congr rfl (.inl rfl), by simp [hst], rfl, rfl⟩
        simpa only [Context.Lawful, hst, Context.PartsLawful, Context.due] using hc
      · exact hst ▸ kept (by simp [hst])
  case silent =>
    split
    · refine ⟨fun hc => ?_, fun hv => hv.congr rfl (.inl rfl), by simp [hst], rfl, rfl⟩
      simpa only [Context.Lawful, hst, Context.PartsLawful, Context.due] using hc
    · exact hst ▸ kept (by simp [hst])

theorem State.withdraw_store (s : State) (h : HeadNum) :
    (s.withdraw h).store =
      { s.store with
        contexts := s.contexts.map (Context.withdrawn h (after s.clock (1000 * s.params.orphanLimit)))
        dueList := s.dueList.filter fun n => !(s.ctx n).orphanedBy h } := by
  unfold State.withdraw; simp; rfl

theorem State.withdraw_follows (s : State) (h : HeadNum) : s.store.Follows (s.withdraw h).store where
  contexts n := by
    rw [State.store_contexts_getElem, State.store_contexts_getElem, State.withdraw_ctx]
    exact Context.leadsTo_withdrawn ..
  freeList := by rw [State.withdraw_store]
  idMap := by rw [State.withdraw_store]
  craneCount := by rw [State.withdraw_store]
  due hs := by
    obtain ⟨nodup, mem⟩ := hs
    have list : (s.withdraw h).store.dueList = s.dueList.filter fun n => !(s.ctx n).orphanedBy h := by
      rw [State.withdraw_store]
    refine ⟨list ▸ nodup.filter _, fun n => ?_⟩
    have memOld : n ∈ s.dueList ↔ (s.ctx n).due.isSome = true := mem n
    rw [State.store_contexts_getElem, State.withdraw_ctx, Context.withdrawn_due, list, List.mem_filter, memOld]
    cases (s.ctx n).orphanedBy h <;> simp

theorem State.linkLoss_follows (s : State) (h : HeadNum) : s.store.Follows (s.linkLoss h).store := by
  unfold State.linkLoss
  dsimp only
  split
  · split <;> split <;> simp only [State.raise_store, State.setHead_store]
    · exact State.withdraw_follows { s with headTx := s.headTx.set h [] } h
    · exact .refl _
    · exact State.withdraw_follows { s with headTx := s.headTx.set h [] } h
    · exact .refl _
  · exact .refl _

theorem State.headDisable_follows (s : State) (ch : ChanNum) (f : Byte) : s.store.Follows (s.headDisable ch f).store := by
  unfold State.headDisable
  split
  · next h _ =>
    rw [State.finish_store]
    unfold State.disableHead
    dsimp only
    split
    · rw [State.raise_store, State.setHead_store]
      exact State.withdraw_follows { s.setHead h { s.headRec h with admin := .disabled } with
        headTx := _ } h
    · exact .refl _
  · exact .refl _

/-! ## Handovers (R105 to R113) -/

/-- A record that gives up its target (R113). -/
def Context.withoutTarget (c : Context) : Context := { c with target := none, confirmAt := none }

theorem State.giveUpTarget_rewrites (s : State) (n : CtxNum) :
    s.store.Rewrites (s.giveUpTarget n).store n (s.ctx n).withoutTarget := by
  have same : (s.forCrane n fun s' => s'.onHead (s.ctx n).target fun s h => s.freePending h n).store = s.store :=
    State.forCrane_store (fun s' => State.onHead_store (fun s h => s.freePending_store h n) s' _) s n
  unfold State.giveUpTarget
  dsimp only
  rw [State.ctx_of_store_eq same]
  exact State.setCtx_rewrites_of same rfl

/-- R81, R82, R153: an ACTIVE or ORPHAN context falls silent as it is. -/
theorem Context.leadsTo_silenced {c : Context} (hst : c.state = .active ∨ c.state = .orphan) (cause : SilentCause) :
    c.LeadsTo (c.silenced cause) := by
  refine ⟨fun hc => ?_, fun hv => Context.silenced_values hv cause, ?_, rfl, rfl⟩
  · rcases hst with hst | hst
    · simp only [Context.Lawful, hst] at hc
      obtain ⟨parts, -, target, confirmAt, -⟩ := hc
      exact Context.silenced_lawful parts target confirmAt cause
    · simp only [Context.Lawful, hst] at hc
      obtain ⟨parts, -, target, confirmAt, -⟩ := hc
      exact Context.silenced_lawful parts target confirmAt cause
  · rcases hst with hst | hst <;> simp [Context.silenced, hst]

/-- R81, R153: a MOVING context falls silent when it has given up its target. -/
theorem Context.leadsTo_abandoned {c : Context} (hst : c.state = .moving) (cause : SilentCause) :
    c.LeadsTo (c.withoutTarget.silenced cause) where
  lawful hc := Context.silenced_lawful (c := c.withoutTarget) (hc.parts (by simp [hst])) rfl rfl cause
  values hv := Context.silenced_values (c := c.withoutTarget) (hv.congr rfl (.inl rfl)) cause
  free := by simp [Context.silenced, hst]
  identity := rfl
  cls := rfl

theorem State.abandonAndFallSilent_follows {s : State} {n : CtxNum} (cause : SilentCause)
    (used : (s.ctx n).state = .active ∨ (s.ctx n).state = .moving) :
    s.store.Follows (s.abandonAndFallSilent n cause).store := by
  unfold State.abandonAndFallSilent
  rcases used with hst | hst <;> rw [hst]
  · exact (s.fallSilent_rewrites n cause).follows (Context.leadsTo_silenced (.inl hst) cause)
  · have given := s.giveUpTarget_rewrites n
    have silent := (s.giveUpTarget n).fallSilent_rewrites n cause
    rw [given.ctx_self] at silent
    exact (given.trans silent).follows (Context.leadsTo_abandoned hst cause)

theorem State.lossDeadline_follows (s : State) (n : CtxNum) : s.store.Follows (s.lossDeadline n).store := by
  unfold State.lossDeadline
  dsimp only
  split
  · next h => exact State.abandonAndFallSilent_follows .linkLost h.1
  · exact .refl _

theorem State.dueExpiry_follows (s : State) : s.store.Follows s.dueExpiry.store := by
  unfold State.dueExpiry
  split
  · split
    · next h => exact State.abandonAndFallSilent_follows .reportMissed h
    · exact .refl _
  · exact .refl _

theorem State.orphanDeadline_follows (s : State) (n : CtxNum) : s.store.Follows (s.orphanDeadline n).store := by
  unfold State.orphanDeadline
  dsimp only
  split
  · next h =>
    exact (s.fallSilent_rewrites n .orphaned).follows (Context.leadsTo_silenced (.inr h.1) _)
  · exact .refl _

theorem State.confirmationDeadline_follows (s : State) (n : CtxNum) :
    s.store.Follows (s.confirmationDeadline n).store := by
  unfold State.confirmationDeadline
  dsimp only
  split
  · next h =>
    have hst := h.1
    have given := s.giveUpTarget_rewrites n
    split
    · next serving hserving =>
      have back : (s.giveUpTarget n).store.Rewrites _ n { (s.giveUpTarget n).ctx n with state := .active } :=
        State.setCtx_rewrites rfl
      rw [given.ctx_self] at back ⊢
      refine (given.trans back).follows
        ⟨fun hc => ?_, fun hv => hv.congr rfl (.inl rfl), by simp [hst], rfl, rfl⟩
      simp only [Context.Lawful, hst] at hc
      obtain ⟨parts, -, -, orphanAt, cause, lossAt, due⟩ := hc
      exact ⟨parts, by simp [Context.withoutTarget, hserving], rfl, rfl, orphanAt, cause, lossAt, due⟩
    · rw [State.raise_store]
      have orphaned := (s.giveUpTarget n).orphan_rewrites n
      rw [given.ctx_self] at orphaned
      refine (given.trans orphaned).follows
        ⟨fun hc => ?_, fun hv => Context.enterOrphan_values (c := (s.ctx n).withoutTarget) (hv.congr rfl (.inl rfl)) _,
          by simp [hst, Context.enterOrphan], rfl, rfl⟩
      simp only [Context.Lawful, hst] at hc
      obtain ⟨parts, -, -, -, cause, -⟩ := hc
      exact Context.enterOrphan_lawful (c := (s.ctx n).withoutTarget) parts rfl rfl cause _
  · exact .refl _

/-- The record of a MOVING context confirmed on its target (R110). -/
theorem Context.leadsTo_confirmed {c : Context} (hst : c.state = .moving) (target : HeadNum) :
    c.LeadsTo { c with state := .active, serving := some target, target := none, confirmAt := none } where
  lawful hc := by
    simp only [Context.Lawful, hst] at hc
    obtain ⟨parts, -, -, orphanAt, cause, lossAt, due⟩ := hc
    exact ⟨parts, rfl, rfl, rfl, orphanAt, cause, lossAt, due⟩
  values hv := hv.congr rfl (.inl rfl)
  free := by simp [hst]
  identity := rfl
  cls := rfl

/-- The quay's side of a confirmation, slots and loads, leaves the store alone. -/
theorem State.confirm_follows {s : State} {n : CtxNum} (hst : (s.ctx n).state = .moving) (target : HeadNum) :
    s.store.Follows (s.confirm n target).store := by
  have slots (r : State) (former : Option HeadNum) : (r.forCrane n fun s =>
      (s.onHead former fun s h => s.freeActive h n).activatePending target n).store = r.store :=
    State.forCrane_store (fun s' => (State.activatePending_store ..).trans
      (State.onHead_store (fun s h => s.freeActive_store h n) s' _)) r n
  have loads (r : State) (former : Option HeadNum) : ((r.onHead former State.subLoad).addLoad target).store = r.store :=
    (State.addLoad_store ..).trans (State.onHead_store State.subLoad_store r _)
  have same := (loads _ (s.ctx n).serving).trans (slots s (s.ctx n).serving)
  unfold State.confirm
  dsimp only
  rw [State.ctx_of_store_eq same]
  exact State.setCtx_follows same (Context.leadsTo_confirmed hst target) rfl

/-- The record of an ACTIVE context that starts toward a target (R105). -/
theorem Context.leadsTo_moving {c : Context} (hst : c.state = .active) (target : HeadNum) (confirmAt : Time)
    (entries : List Entry) :
    c.LeadsTo { c with state := .moving, target := some target, confirmAt := some confirmAt, entries := entries } where
  lawful hc := by
    simp only [Context.Lawful, hst] at hc
    obtain ⟨parts, -, -, -, orphanAt, cause, lossAt, due⟩ := hc
    exact ⟨parts, rfl, rfl, orphanAt, cause, lossAt, due⟩
  values hv := hv.congr rfl (.inl rfl)
  free := by simp [hst]
  identity := rfl
  cls := rfl

theorem State.startHandover_follows {s : State} {n : CtxNum} (hst : (s.ctx n).state = .active) (serving target : HeadNum) :
    s.store.Follows (s.startHandover n serving target).store := by
  unfold State.startHandover
  dsimp only
  rw [State.sendHead_store, State.forCrane_store (fun s' => s'.reservePending_store target n _)]
  exact State.setCtx_follows rfl (Context.leadsTo_moving hst target _ _) rfl

theorem State.setCounts_rewrites (s : State) (n : CtxNum) (serving : HeadNum) (v : Int) :
    s.store.Rewrites (s.setCounts n serving v).store n
      { s.ctx n with entries := (s.ctx n).entries.map fun e =>
          { e with count := s.countAfter n serving (s.preferred n) v e } } := State.setCtx_rewrites rfl

theorem State.evaluate_follows (s : State) (n : CtxNum) : s.store.Follows (s.evaluate n).store := by
  unfold State.evaluate
  dsimp only
  split
  · next serving hst _ =>
    split
    · exact .refl _
    · next own _ =>
      have counts := s.setCounts_rewrites n serving (compareValue (s.preferred n) (s.params.bonus.of (s.ctx n).cls) own)
      have counted := counts.follows (Context.leadsTo_uncoupled (fun _ => by simp [hst]) rfl)
      split
      · exact counted.trans (State.startHandover_follows (by rw [counts.ctx_self, hst]) _ _)
      · exact counted
  · exact .refl _

theorem State.evaluateAt_follows {s : State} {n : CtxNum} (used : (s.ctx n).state ≠ .free) (a : HeadNum) :
    s.store.Follows (s.evaluateAt a n).store := by
  rcases s.evaluateAt_eq a n with h | h <;> rw [h]
  · exact s.evaluate_follows n
  · have cleared : s.store.Rewrites _ n { s.ctx n with awaitsServing := false } := State.setCtx_rewrites rfl
    exact (cleared.follows (Context.leadsTo_uncoupled (fun _ => used) rfl)).trans (State.evaluate_follows _ n)

end Sys2Proof.Machine
end

section
/-! SUPPORT. What a contact and a written field set do to the store: the verdicts, the later stages, the report intake, and the
applying of UPDATE and STORE. -/

namespace Sys2Proof.Machine

open Sys2Proof

/-! ## Entering ACTIVE (R75) -/

/-- What belongs to ACTIVE is started in a record, by its class. -/
def Context.started (c : Context) (now : Time) (lossWindow : Nat) : Context :=
  match c.cls, c.reefer with
  | some .crane, _ => { c with lossAt := some (after now lossWindow) }
  | some .reefer, some r => c.withDue (some (dueFrom now r.period))
  | _, _ => c

/-- R4, R75: an ACTIVE record in which nothing that belongs to ACTIVE has been started. -/
structure Context.Unstarted (c : Context) : Prop where
  parts     : c.PartsLawful
  state     : c.state = .active
  serving   : c.serving.isSome = true
  target    : c.target = none
  confirmAt : c.confirmAt = none
  orphanAt  : c.orphanAt = none
  cause     : c.cause = none
  lossAt    : c.lossAt = none
  due       : c.due = none

theorem Context.lawful_iff_of_active {c : Context} (hst : c.state = .active) :
    c.Lawful ↔ c.PartsLawful ∧ c.serving.isSome = true ∧ c.target = none ∧ c.confirmAt = none ∧ c.orphanAt = none ∧
      c.cause = none ∧ (c.lossAt.isSome = true ↔ c.cls = some .crane) ∧
      (c.due.isSome = true ↔ c.cls = some .reefer) := by
  simp only [Context.Lawful, hst]

theorem Context.Unstarted.lawful_started {c : Context} (h : c.Unstarted) (now : Time) (w : Nat) : (c.started now w).Lawful := by
  obtain ⟨parts, hst, serving, target, confirmAt, orphanAt, cause, lossAt, due⟩ := h
  have ⟨_, _, _, reeferPart⟩ := parts
  unfold Context.started
  split
  · next hcls =>
    exact (Context.lawful_iff_of_active (c := { c with lossAt := some (after now w) }) hst).2
      ⟨parts, serving, target, confirmAt, orphanAt, cause, by simp [hcls], by
        show c.due.isSome = true ↔ c.cls = some .reefer
        simp [due, hcls]⟩
  · next r hcls hr =>
    have hasPart : c.reefer.isSome = true := by simp [hr]
    refine (Context.lawful_iff_of_active (c := c.withDue _) hst).2
      ⟨parts.withDue _, serving, target, confirmAt, orphanAt, cause, ?_, ?_⟩
    · show c.lossAt.isSome = true ↔ c.cls = some .crane
      simp [lossAt, hcls]
    · rw [Context.withDue_some_due hasPart]
      exact ⟨fun _ => hcls, fun _ => rfl⟩
  · next notCrane notReefer =>
    refine (Context.lawful_iff_of_active hst).2 ⟨parts, serving, target, confirmAt, orphanAt, cause, ?_, ?_⟩
    · simp only [lossAt, Option.isSome_none, Bool.false_eq_true, false_iff]
      exact notCrane
    · simp only [due, Option.isSome_none, Bool.false_eq_true, false_iff]
      intro hcls
      obtain ⟨r, hr⟩ := Option.isSome_iff_exists.1 (reeferPart.2 hcls)
      exact notReefer r hcls hr

@[simp] theorem Context.started_state (c : Context) (now : Time) (w : Nat) : (c.started now w).state = c.state := by
  unfold Context.started; split <;> rfl

@[simp] theorem Context.started_identity (c : Context) (now : Time) (w : Nat) :
    (c.started now w).identity = c.identity := by
  unfold Context.started; split <;> rfl

@[simp] theorem Context.started_cls (c : Context) (now : Time) (w : Nat) : (c.started now w).cls = c.cls := by
  unfold Context.started; split <;> rfl

theorem Context.started_values {c : Context} (h : c.ValuesInRange) (now : Time) (w : Nat) :
    (c.started now w).ValuesInRange := by
  unfold Context.started
  split
  · exact h.congr rfl (.inl rfl)
  · exact h.congr rfl (.inr ⟨_, rfl⟩)
  · exact h

theorem State.enterActive_rewrites (s : State) (n : CtxNum) :
    s.store.Rewrites (s.enterActive n).store n ((s.ctx n).started s.clock s.params.lossWindow) := by
  unfold State.enterActive Context.started
  dsimp only
  cases hcls : (s.ctx n).cls with
  | none => exact .refl _ n
  | some cls =>
    cases cls with
    | crane => exact State.setCtx_rewrites rfl
    | general => exact .refl _ n
    | reefer =>
      cases hr : (s.ctx n).reefer with
      | none => exact .refl _ n
      | some r => exact State.setDue_rewrites (by simp [hr]) _

/-- A record from ORPHAN or SILENT is made ACTIVE and what belongs to ACTIVE is started. -/
theorem Context.leadsTo_started {c d : Context} (used : c.state ≠ .free) (active : d.state = .active)
    (identity : d.identity = c.identity) (cls : d.cls = c.cls) (crane : d.crane = c.crane) (reefer : d.reefer = c.reefer)
    (unstarted : c.Lawful → d.Unstarted) (now : Time) (w : Nat) : c.LeadsTo (d.started now w) where
  lawful hc := (unstarted hc).lawful_started now w
  values hv := Context.started_values (hv.congr crane (.inl reefer)) now w
  free := by simp [active, used]
  identity := by rw [Context.started_identity, identity]
  cls := by rw [Context.started_cls, cls]

/-- The record of a context that returns from silence (R72). -/
def Context.returned (c : Context) : Context := { c with state := .active, cause := none, awaitsServing := false }

/-- The record of a context re-homed on head a (R73). -/
def Context.rehomed (c : Context) (a : HeadNum) : Context :=
  { c with state := .active, serving := some a, orphanAt := none, cause := none, awaitsServing := false }

theorem Context.leadsTo_returned {c : Context} (hst : c.state = .silent) (serving : c.serving.isSome = true) (now : Time)
    (w : Nat) : c.LeadsTo (c.returned.started now w) := by
  refine Context.leadsTo_started (c := c) (d := c.returned) (by simp [hst]) rfl rfl rfl rfl rfl (fun hc => ?_) now w
  simp only [Context.Lawful, hst] at hc
  obtain ⟨parts, target, confirmAt, orphanAt, -, lossAt, due⟩ := hc
  exact ⟨parts, rfl, serving, target, confirmAt, orphanAt, rfl, lossAt, due⟩

theorem Context.leadsTo_rehomed {c : Context} (hst : c.state = .orphan ∨ c.state = .silent) (a : HeadNum) (now : Time)
    (w : Nat) : c.LeadsTo ((c.rehomed a).started now w) := by
  have used : c.state ≠ .free := by rcases hst with hst | hst <;> simp [hst]
  refine Context.leadsTo_started (d := c.rehomed a) used rfl rfl rfl rfl rfl (fun hc => ?_) now w
  rcases hst with hst | hst
  · simp only [Context.Lawful, hst] at hc
    obtain ⟨parts, -, target, confirmAt, -, -, lossAt, due⟩ := hc
    exact ⟨parts, rfl, rfl, target, confirmAt, rfl, rfl, lossAt, due⟩
  · simp only [Context.Lawful, hst] at hc
    obtain ⟨parts, target, confirmAt, -, -, lossAt, due⟩ := hc
    exact ⟨parts, rfl, rfl, target, confirmAt, rfl, rfl, lossAt, due⟩

theorem State.returnFromSilence_follows {s : State} {n : CtxNum} (hst : (s.ctx n).state = .silent)
    (serving : (s.ctx n).serving.isSome = true) : s.store.Follows (s.returnFromSilence n).store := by
  have made : s.store.Rewrites (s.setCtx n (s.ctx n).returned).store n (s.ctx n).returned := State.setCtx_rewrites rfl
  have entered := (s.setCtx n (s.ctx n).returned).enterActive_rewrites n
  rw [State.setCtx_ctx_self] at entered
  exact (made.trans entered).follows (Context.leadsTo_returned hst serving _ _)

theorem State.rehome_follows {s : State} {n : CtxNum} (hst : (s.ctx n).state = .orphan ∨ (s.ctx n).state = .silent)
    (a : HeadNum) : s.store.Follows (s.rehome a n).store := by
  have made : s.store.Rewrites ((s.addLoad a).setCtx n ((s.ctx n).rehomed a)).store n ((s.ctx n).rehomed a) :=
    State.setCtx_rewrites_of (s.addLoad_store a) rfl
  have same : (((s.addLoad a).setCtx n ((s.ctx n).rehomed a)).forCrane n fun s =>
      s.reserveActive a n (s.ctx n).slotNeed).store = ((s.addLoad a).setCtx n ((s.ctx n).rehomed a)).store :=
    State.forCrane_store (fun s' => s'.reserveActive_store a n _) _ n
  have entered := State.enterActive_rewrites (((s.addLoad a).setCtx n ((s.ctx n).rehomed a)).forCrane n fun s =>
    s.reserveActive a n (s.ctx n).slotNeed) n
  rw [State.ctx_of_store_eq same, State.setCtx_ctx_self, same] at entered
  exact (made.trans entered).follows (Context.leadsTo_rehomed hst a _ _)

/-! ## The stages of a contact (R66) -/

theorem State.judgeRehome_follows {s : State} {n : CtxNum}
    (hst : (s.ctx n).state = .orphan ∨ (s.ctx n).state = .silent) (a : HeadNum) :
    s.store.Follows (s.judgeRehome a n).1.store := by
  unfold State.judgeRehome
  split
  · exact State.rehome_follows hst a
  · exact .refl _

theorem State.giveVerdict_follows (s : State) (a : HeadNum) (n : CtxNum) :
    s.store.Follows (s.giveVerdict a n).1.store := by
  unfold State.giveVerdict
  dsimp only
  split
  · exact .refl _
  · split <;> exact .refl _
  · next hst =>
    split
    · exact State.confirm_follows hst a
    · split <;> exact .refl _
  · next hst => exact State.judgeRehome_follows (.inl hst) a
  · next hst =>
    split
    · next h serving => exact State.returnFromSilence_follows hst (by simp [serving])
    · exact State.judgeRehome_follows (.inr hst) a

theorem State.qualityUpdate_follows {s : State} {n : CtxNum} (used : (s.ctx n).state ≠ .free) (a : HeadNum)
    (sample : Byte) : s.store.Follows (s.qualityUpdate a n sample).store := by
  unfold State.qualityUpdate
  split
  · exact .refl _
  · exact State.setCtx_follows rfl (Context.leadsTo_uncoupled (fun _ => used) rfl) rfl

theorem State.capturePosition_follows (s : State) (n : CtxNum) (position : Option Half) :
    s.store.Follows (s.capturePosition n position).store := by
  unfold State.capturePosition
  split
  · next p part hp =>
    refine State.setCtx_follows rfl (Context.leadsTo_parts rfl (by simp [hp]) rfl rfl fun hv => ?_) rfl
    obtain ⟨crane, reefer⟩ := hv
    exact ⟨fun q hq => by obtain rfl := Option.some.inj hq; exact crane part hp, reefer⟩
  · exact .refl _

theorem State.restartLoss_follows (s : State) (n : CtxNum) : s.store.Follows (s.restartLoss n).store := by
  unfold State.restartLoss
  dsimp only
  split
  · next h =>
    obtain ⟨hcls, hst⟩ := h
    refine State.setCtx_follows rfl ⟨fun hc => ?_, fun hv => hv.congr rfl (.inl rfl), .rfl, rfl, rfl⟩ rfl
    rcases hst with hst | hst
    · simp only [Context.Lawful, hst] at hc ⊢
      obtain ⟨parts, serving, target, confirmAt, orphanAt, cause, -, due⟩ := hc
      exact ⟨parts, serving, target, confirmAt, orphanAt, cause, by simp [hcls], due⟩
    · simp only [Context.Lawful, hst] at hc ⊢
      obtain ⟨parts, target, confirmAt, orphanAt, cause, -, due⟩ := hc
      exact ⟨parts, target, confirmAt, orphanAt, cause, by simp [hcls], due⟩
  · exact .refl _

/-! ## Reports (R143 to R151) -/

theorem saturate_range (w : Half) : -500 ≤ saturate w ∧ saturate w ≤ 500 := clampInt_bounds (by decide) _

/-- R146: WARM and COLD are never both set by one load, since the band is at least 1. -/
theorem loadWarm_loadCold {supply setpoint : Option Int} {band : Nat} (hb : 1 ≤ band) {warm cold : Bool}
    (old : ¬ (warm = true ∧ cold = true)) :
    ¬ (loadWarm supply setpoint band warm = true ∧ loadCold supply setpoint band cold = true) := by
  cases supply with
  | none => exact old
  | some t =>
    cases setpoint with
    | none => exact old
    | some sp => simp only [loadWarm, loadCold, decide_eq_true_eq]; omega

theorem Indicators.after_not_both {i : Indicators} (old : ¬ (i.warm = true ∧ i.cold = true)) {band : Nat} (hb : 1 ≤ band)
    (kind : ReportKind) (previous supply setpoint : Option Int) (rise : Nat) (faults : FaultSet) :
    ¬ ((i.after kind previous supply setpoint band rise faults).warm = true ∧
      (i.after kind previous supply setpoint band rise faults).cold = true) := by
  cases kind with
  | periodic => exact loadWarm_loadCold hb old
  | alarm => exact loadWarm_loadCold hb old
  | defrost => simp [Indicators.after]
  | power => exact old

/-- R142, R144: what a report stores is in range. -/
theorem ReeferPart.take_values {c : Context} (h : c.ValuesInRange) {r : ReeferPart} (hr : c.reefer = some r)
    (p : ReportPayload) (now : Time) : ({ c with reefer := some (r.take p now) } : Context).ValuesInRange := by
  obtain ⟨crane, reefer⟩ := h
  obtain ⟨p1, p2, b1, b2, r1, r2, -, -, setpoint, marks⟩ := reefer r hr
  have saturated (w : Option Half) (t : Int) (ht : w.map saturate = some t) : -500 ≤ t ∧ t ≤ 500 := by
    obtain ⟨w, -, rfl⟩ := Option.map_eq_some_iff.1 ht
    exact saturate_range w
  refine ⟨crane, fun q hq => ?_⟩
  obtain rfl := Option.some.inj hq
  refine ⟨p1, p2, b1, b2, r1, r2, saturated p.supply, saturated p.ret, fun t ht => ?_,
    Indicators.after_not_both marks b1 _ _ _ _ _ _⟩
  cases hs : p.setpoint with
  | none => exact setpoint t (by simpa [ReeferPart.take, hs] using ht)
  | some w => exact saturated (some w) t (by simpa [ReeferPart.take, hs] using ht)

theorem State.setDue_follows {s : State} {n : CtxNum} (hdue : (s.ctx n).due.isSome = true) (t : Time) :
    s.store.Follows (s.setDue n t).store := by
  have hr : (s.ctx n).reefer.isSome = true := by
    cases h : (s.ctx n).reefer with
    | none => simp [Context.due, h] at hdue
    | some r => rfl
  exact (State.setDue_rewrites hr t).follows (Context.leadsTo_parts rfl rfl (Context.withDue_reefer_isSome ..)
    (by rw [Context.withDue_some_due hr, hdue]; rfl) fun hv => hv.congr rfl (.inr ⟨_, rfl⟩))

theorem State.intake_follows (s : State) (n : CtxNum) (p : ReportPayload) : s.store.Follows (s.intake n p).store := by
  unfold State.intake
  split
  · exact .refl _
  · next r hr =>
    split
    · exact .refl _
    · dsimp only
      have stored : s.store.Follows (s.setCtx n { s.ctx n with reefer := some (r.take p s.clock) }).store :=
        State.setCtx_follows rfl (Context.leadsTo_parts rfl rfl (by simp [hr]) (by simp [Context.due, hr, ReeferPart.take])
          fun hv => ReeferPart.take_values hv hr p s.clock) (by simp [Context.due, hr, ReeferPart.take])
      have moved (q : State) (hq : q.store = (s.setCtx n { s.ctx n with reefer := some (r.take p s.clock) }).store)
          (h : reschedules p.kind ∧ r.due.isSome) (t : Time) : s.store.Follows (q.setDue n t).store := by
        rw [← hq] at stored
        refine stored.trans (State.setDue_follows ?_ t)
        rw [State.ctx_of_store_eq hq, State.setCtx_ctx_self]
        exact h.2
      split <;> split
      · exact moved _ rfl ‹_› _
      · exact moved _ rfl ‹_› _
      · exact stored
      · exact stored

theorem State.laterStages_follows {s : State} {n : CtxNum} (used : (s.ctx n).state ≠ .free) (a : HeadNum) (sample : Byte)
    (position : Option Half) (payload : Option ReportPayload) :
    s.store.Follows (s.laterStages a n sample position payload).store := by
  have measured := (State.qualityUpdate_follows used a sample).trans
    ((s.qualityUpdate a n sample).capturePosition_follows n position)
  have reported : s.store.Follows (match payload with
      | some p => ((s.qualityUpdate a n sample).capturePosition n position).intake n p
      | none => (s.qualityUpdate a n sample).capturePosition n position).store := by
    cases payload with
    | none => exact measured
    | some p => exact measured.trans (State.intake_follows _ n p)
  have restarted := reported.trans (State.restartLoss_follows _ n)
  exact restarted.trans (State.evaluateAt_follows (mt (restarted.contexts n).free.1 used) a)

theorem State.contact_follows (s : State) (a : HeadNum) (tag : Half) (sample : Byte) (position : Option Half)
    (payload : Option ReportPayload) : s.store.Follows (s.contact a tag sample position payload).store := by
  unfold State.contact
  dsimp only
  rw [← s.takeFrame_store a]
  generalize s.takeFrame a = s
  split
  · rw [State.sendHead_store]; exact .refl _
  · next n hn =>
    split
    · have judged := s.giveVerdict_follows a n
      have used := mt (judged.contexts n).free.1 (State.resolve_used hn)
      rw [State.sendHead_store]
      exact judged.trans (State.laterStages_follows used a sample position payload)
    · rw [State.sendHead_store]; exact .refl _

/-- The entries of a record are updated one by one: a FREE record has none (R4). -/
theorem Context.leadsTo_map_entries (c : Context) (f : Entry → Entry) :
    c.LeadsTo { c with entries := c.entries.map f } where
  lawful hc := by
    by_cases hst : c.state = .free
    · have none : c.entries = [] := by rw [(Context.lawful_iff_of_free hst).1 hc]; rfl
      have same : ({ c with entries := c.entries.map f } : Context) = c := by rw [none, List.map_nil, ← none]
      rwa [same]
    · exact (Context.leadsTo_uncoupled (fun _ => hst) rfl).lawful hc
  values hv := hv.congr rfl (.inl rfl)
  free := .rfl
  identity := rfl
  cls := rfl

theorem State.staleDeadline_follows (s : State) (n : CtxNum) (h : HeadNum) :
    s.store.Follows (s.staleDeadline n h).store :=
  State.setCtx_follows rfl (Context.leadsTo_map_entries ..) rfl

/-! ## Field sets (R27 to R29, R133, R154 to R156) -/

/-- R12, R27: the values of a field set as applied lie in their ranges. -/
structure Applied.InRange (a : Applied) : Prop where
  slotCount : ∀ k, a.slotCount = some k → 1 ≤ k ∧ k ≤ 4
  period    : ∀ x, a.period = some x → 15 ≤ x ∧ x ≤ 3600
  band      : ∀ x, a.band = some x → 1 ≤ x ∧ x ≤ 100
  rise      : ∀ x, a.rise = some x → 1 ≤ x ∧ x ≤ 100

theorem appliedSet_inRange (f : FieldSet) : (appliedSet f).InRange := by
  have clamped {α : Type} {lo hi : Nat} (hle : lo ≤ hi) (o : Option α) (g : α → Nat) (x : Nat)
      (hx : o.map (fun y => clamp lo hi (g y)) = some x) : lo ≤ x ∧ x ≤ hi := by
    obtain ⟨y, -, rfl⟩ := Option.map_eq_some_iff.1 hx
    exact clamp_bounds hle _
  exact ⟨clamped (by decide) f.slotCount _, clamped (by decide) f.period _, clamped (by decide) f.band _,
    clamped (by decide) f.rise _⟩

/-- A field set that is accepted is applied as clamped, to a context with a class (R27). -/
theorem State.judge_ok {s : State} {n : CtxNum} {set : FieldSet} {a : Applied} (h : s.judge n set = .ok a) :
    a = appliedSet set ∧ (s.ctx n).cls.isSome = true := by
  cases hcls : (s.ctx n).cls with
  | none => simp [State.judge, hcls] at h
  | some cls =>
    refine ⟨?_, rfl⟩
    simp only [State.judge, hcls] at h
    split at h
    · cases h
    · split at h
      · exact (Except.ok.inj h).symm
      · split at h
        · cases h
        · split at h
          · split at h
            · split at h
              · cases h
              · exact (Except.ok.inj h).symm
            · exact (Except.ok.inj h).symm
          · exact (Except.ok.inj h).symm

/-- The reefer part with the profile values of a field set (R154). -/
def ReeferPart.profiled (r : ReeferPart) (a : Applied) : ReeferPart :=
  { r with period := a.period.getD r.period, band := a.band.getD r.band, rise := a.rise.getD r.rise }

theorem ReeferPart.profiled_values {c : Context} (h : c.ValuesInRange) {r : ReeferPart} (hr : c.reefer = some r)
    {a : Applied} (ha : a.InRange) : ({ c with reefer := some (r.profiled a) } : Context).ValuesInRange := by
  obtain ⟨crane, reefer⟩ := h
  obtain ⟨p1, p2, b1, b2, r1, r2, readings⟩ := reefer r hr
  have chosen {lo hi old : Nat} {o : Option Nat} (ho : ∀ x, o = some x → lo ≤ x ∧ x ≤ hi) (h1 : lo ≤ old) (h2 : old ≤ hi) :
      lo ≤ o.getD old ∧ o.getD old ≤ hi := by
    cases o with
    | none => exact ⟨h1, h2⟩
    | some x => exact ho x rfl
  refine ⟨crane, fun q hq => ?_⟩
  obtain rfl := Option.some.inj hq
  obtain ⟨p1, p2⟩ := chosen ha.period p1 p2
  obtain ⟨b1, b2⟩ := chosen ha.band b1 b2
  obtain ⟨r1, r2⟩ := chosen ha.rise r1 r2
  exact ⟨p1, p2, b1, b2, r1, r2, readings⟩

theorem State.writeProfile_follows (s : State) (n : CtxNum) {a : Applied} (ha : a.InRange) :
    s.store.Follows (s.writeProfile n a).store := by
  unfold State.writeProfile
  split
  · exact .refl _
  · next r hr =>
    have stored := State.setCtx_follows (s := s) (r := s) rfl (n := n) (c := { s.ctx n with reefer := some (r.profiled a) })
      (Context.leadsTo_parts rfl rfl (by simp [hr]) (by simp [Context.due, hr, ReeferPart.profiled])
        fun hv => ReeferPart.profiled_values hv hr ha) (by simp [Context.due, hr, ReeferPart.profiled])
    dsimp only
    split
    · next due hdue =>
      split
      · exact stored
      · refine stored.trans (State.setDue_follows ?_ _)
        rw [State.setCtx_ctx_self]
        simp [Context.due, ReeferPart.profiled, hdue]
    · exact stored

@[simp] theorem State.resizeSlots_store (s : State) (n : CtxNum) (old new : Nat) :
    (s.resizeSlots n old new).store = s.store := by
  unfold State.resizeSlots
  split
  · rfl
  · split
    · simp
    · split <;> simp

theorem State.writeSlotCount_follows (s : State) (n : CtxNum) {a : Applied} (ha : a.InRange) :
    s.store.Follows (s.writeSlotCount n a).store := by
  unfold State.writeSlotCount
  split
  · next k' part hk hp =>
    rw [State.resizeSlots_store]
    refine State.setCtx_follows rfl (Context.leadsTo_parts rfl (by simp [hp]) rfl rfl fun hv => ?_) rfl
    obtain ⟨crane, reefer⟩ := hv
    exact ⟨fun q hq => by obtain rfl := Option.some.inj hq; exact ha.slotCount k' hk, reefer⟩
  · exact .refl _

theorem State.applyFields_follows {s : State} {n : CtxNum} (cls : (s.ctx n).cls.isSome = true) {a : Applied}
    (ha : a.InRange) : s.store.Follows (s.applyFields n a).store := by
  have owner := State.setCtx_follows (s := s) (r := s) rfl (n := n)
    (c := { s.ctx n with owner := a.owner.getD (s.ctx n).owner })
    (Context.leadsTo_uncoupled (fun hc => hc.used_of_cls cls) rfl) rfl
  exact (owner.trans (State.writeProfile_follows _ n ha)).trans (State.writeSlotCount_follows _ n ha)

theorem State.updateRequest_follows (s : State) (ch : ChanNum) (f : WriteFields) :
    s.store.Follows (s.updateRequest ch f).store := by
  unfold State.updateRequest
  split
  · exact .refl _
  · next n _ =>
    split
    · exact .refl _
    · split
      · exact .refl _
      · split
        · exact .refl _
        · next a ha =>
          obtain ⟨rfl, cls⟩ := State.judge_ok ha
          exact State.applyFields_follows cls (appliedSet_inRange _)

theorem State.storeRequest_follows (s : State) (ch : ChanNum) (f : WriteFields) :
    s.store.Follows (s.storeRequest ch f).store := by
  unfold State.storeRequest
  split
  · exact .refl _
  · next n _ =>
    split
    · exact .refl _
    · split
      · exact .refl _
      · next a ha =>
        obtain ⟨rfl, cls⟩ := State.judge_ok ha
        have applied := (State.applyFields_follows cls (appliedSet_inRange f.set)).trans
          ((s.applyFields n (appliedSet f.set)).dropHold_follows n ch)
        exact applied.trans (State.handOn_follows
          (((s.applyFields n (appliedSet f.set)).dropHold n ch).finish ch storeCode (.doneFields (appliedSet f.set))) n)

end Sys2Proof.Machine
end

section
/-! SUPPORT. Everything a step can do to the store: records led on with the rest standing, an admission, a retirement, a FLUSH,
or a reset. -/

namespace Sys2Proof.Machine

open Sys2Proof

/-! ## Admission (R14, R15) -/

/-- R15, of a store: the record at the head of the free list becomes the context c with identity id. -/
structure Store.Admits (a b : Store) (n : CtxNum) (id : Identity) (c : Context) : Prop where
  freeList   : a.freeList = n :: b.freeList
  fresh      : lookupId a.idMap id = none
  contexts   : b.contexts = a.contexts.set n c
  idMap      : b.idMap = insertId id n a.idMap
  craneCount : b.craneCount = if c.cls = some .crane then a.craneCount + 1 else a.craneCount
  room       : c.cls = some .crane → a.craneCount < 64
  used       : c.state ≠ .free
  identity   : c.identity = some id
  lawful     : c.Lawful
  values     : c.ValuesInRange
  due        : a.contexts[n].due = none → a.InStep → b.InStep

theorem admittedContext_unstarted (gen : BitVec 5) (f : AdmitFields) (cls : TermClass) (h : HeadNum) (a : Applied) (now : Time)
    (entries : List Entry) : (admittedContext gen f cls h a now entries).Unstarted := by
  refine ⟨⟨rfl, rfl, ?_, ?_⟩, rfl, rfl, rfl, rfl, rfl, rfl, rfl, ?_⟩ <;> cases cls <;>
    simp [admittedContext, craneAtAdmission, reeferAtAdmission, Context.due]

/-- R2, R3, R12: the class part made at admission is in range. -/
theorem admittedContext_values (gen : BitVec 5) (f : AdmitFields) (cls : TermClass) (h : HeadNum) (set : FieldSet) (now : Time)
    (entries : List Entry) : (admittedContext gen f cls h (admitProfile set cls) now entries).ValuesInRange := by
  cases cls with
  | crane =>
    refine ⟨fun p hp => ?_, fun r hr => by simp [admittedContext, reeferAtAdmission] at hr⟩
    obtain rfl := Option.some.inj hp
    exact clamp_bounds (by decide) _
  | reefer =>
    refine ⟨fun p hp => by simp [admittedContext, craneAtAdmission] at hp, fun r hr => ?_⟩
    obtain rfl := Option.some.inj hr
    have period := clamp_bounds (lo := 15) (hi := 3600) (by decide) ((set.period.map (·.toNat)).getD 300)
    have band := clamp_bounds (lo := 1) (hi := 100) (by decide) ((set.band.map (·.toNat)).getD 20)
    have rise := clamp_bounds (lo := 1) (hi := 100) (by decide) ((set.rise.map (·.toNat)).getD 15)
    exact ⟨period.1, period.2, band.1, band.2, rise.1, rise.2, by simp, by simp, by simp, by simp⟩
  | general =>
    exact ⟨fun p hp => by simp [admittedContext, craneAtAdmission] at hp,
      fun r hr => by simp [admittedContext, reeferAtAdmission] at hr⟩

/-- The new record and its place in the free list and the map, before ACTIVE is entered. -/
def State.withAdmitted (s : State) (n : CtxNum) (c : Context) (id : Identity) (rest : List CtxNum) (h : HeadNum) (k : Nat) : State :=
  let s := { s.setCtx n c with freeList := rest, idMap := insertId id n s.idMap }.addLoad h
  if c.cls = some .crane then { s with craneCount := s.craneCount + 1 }.reserveActive h n k else s

theorem State.withAdmitted_store (s : State) (n : CtxNum) (c : Context) (id : Identity) (rest : List CtxNum) (h : HeadNum)
    (k : Nat) : (s.withAdmitted n c id rest h k).store =
      { contexts := s.contexts.set n c, dueList := s.dueList, freeList := rest, idMap := insertId id n s.idMap
        craneCount := if c.cls = some .crane then s.craneCount + 1 else s.craneCount } := by
  unfold State.withAdmitted
  dsimp only
  split
  · rw [State.reserveActive_store]; rfl
  · rfl

/-- The record made by an ADMIT, before ACTIVE is entered. -/
def State.newRecord (s : State) (f : AdmitFields) (cls : TermClass) (h : HeadNum) (n : CtxNum) : Context :=
  admittedContext (s.ctx n).gen f cls h (admitProfile f.set cls) s.clock (s.firstEntries h f.sample)

/-- Everything an accepted ADMIT does, in three moves: the new record, its entry into ACTIVE, the answer. -/
theorem State.admitAccepted_eq (s : State) (ch : ChanNum) (f : AdmitFields) (cls : TermClass) (h : HeadNum) (n : CtxNum)
    (rest : List CtxNum) :
    s.admitAccepted ch f cls h n rest =
      let t := (s.withAdmitted n (s.newRecord f cls h n) f.identity rest h
        ((admitProfile f.set cls).slotCount.getD 2)).enterActive n
      t.finish ch admitCode (.admitted n (t.tag n) (admitProfile f.set cls)) := by
  cases cls <;> rfl

theorem State.admitAccepted_admits {s : State} {f : AdmitFields} {cls : TermClass} {n : CtxNum} {rest : List CtxNum}
    (freeList : s.freeList = n :: rest) (fresh : lookupId s.idMap f.identity = none)
    (room : cls = .crane → s.craneCount < 64) (ch : ChanNum) (h : HeadNum) :
    ∃ c, s.store.Admits (s.admitAccepted ch f cls h n rest).store n f.identity c := by
  have record : (s.newRecord f cls h n).Unstarted := admittedContext_unstarted ..
  have made := s.withAdmitted_store n (s.newRecord f cls h n) f.identity rest h ((admitProfile f.set cls).slotCount.getD 2)
  rw [State.admitAccepted_eq]
  dsimp only
  rw [State.finish_store]
  generalize s.withAdmitted n (s.newRecord f cls h n) f.identity rest h ((admitProfile f.set cls).slotCount.getD 2) = t
    at made ⊢
  have entered := t.enterActive_rewrites n
  have ctx : t.ctx n = s.newRecord f cls h n := by
    rw [← State.store_contexts_getElem, made]; simp
  rw [ctx] at entered
  refine ⟨_, ?_, fresh, ?_, ?_, ?_, ?_, ?_, ?_, record.lawful_started t.clock t.params.lossWindow,
    Context.started_values (admittedContext_values ..) _ _, fun free inStep => entered.due ?_⟩
  · rw [entered.freeList, made]; exact freeList
  · rw [entered.contexts, made, Vector.set_set]; rfl
  · rw [entered.idMap, made]; rfl
  · rw [entered.craneCount, made, Context.started_cls]; rfl
  · rw [Context.started_cls]; exact fun hcls => room (Option.some.inj hcls)
  · rw [Context.started_state]; simp [State.newRecord, admittedContext]
  · rw [Context.started_identity]; rfl
  · have kept : s.store.Rewrites (s.setCtx n (s.newRecord f cls h n)).store n (s.newRecord f cls h n) :=
      State.setCtx_rewrites (by rw [record.due]; exact congrArg Option.isSome free.symm)
    rw [made]
    exact kept.due inStep

/-! ## Retirement (R17 to R19) -/

/-- R18, R19, of a store: record n becomes FREE in its next generation, and free list, map, count and due list follow. -/
structure Store.Retires (a b : Store) (n : CtxNum) : Prop where
  used       : a.contexts[n].state ≠ .free
  contexts   : b.contexts = a.contexts.set n (Context.freeIn (a.contexts[n].gen + 1))
  freeList   : b.freeList = a.freeList ++ [n]
  idMap      : b.idMap = match a.contexts[n].identity with
    | some id => eraseId a.idMap id
    | none => a.idMap
  craneCount : b.craneCount = if a.contexts[n].cls = some .crane then a.craneCount - 1 else a.craneCount
  dueList    : b.dueList = a.dueList.filter (· ≠ n)

/-- The record of a context whose own hold a RETIRE drops. -/
theorem State.dropOwnHold_store (s : State) (n : CtxNum) (ch : ChanNum) :
    ∃ x, (s.dropOwnHold n ch).store = (s.setCtx n { s.ctx n with holder := x }).store := by
  unfold State.dropOwnHold
  split
  · exact ⟨none, rfl⟩
  · refine ⟨(s.ctx n).holder, ?_⟩
    show s.store = (s.setCtx n (s.ctx n)).store
    rw [State.setCtx_ctx_eq]

theorem State.leaveQuay_store (s : State) (n : CtxNum) :
    (s.leaveQuay n).store = { s.store with dueList := s.store.dueList.filter (· ≠ n) } := by
  have same (serving target : Option HeadNum) : ((s.forCrane n fun s =>
      (s.onHead serving fun s h => s.freeActive h n).onHead target fun s h => s.freePending h n).onHead serving
        State.subLoad).store = s.store :=
    (State.onHead_store State.subLoad_store _ _).trans (State.forCrane_store (fun s' =>
      (State.onHead_store (fun s h => s.freePending_store h n) _ _).trans
        (State.onHead_store (fun s h => s.freeActive_store h n) s' _)) s n)
  have fields := (State.store_eq_iff _ _).1 (same (s.ctx n).serving (s.ctx n).target)
  obtain ⟨contexts, dueList, freeList, idMap, craneCount⟩ := fields
  unfold State.leaveQuay
  dsimp only
  simp only [State.store, contexts, dueList, freeList, idMap, craneCount]

theorem State.retire_retires {s : State} {n : CtxNum} (used : (s.ctx n).state ≠ .free) (ch : ChanNum) :
    s.store.Retires ((((s.dropOwnHold n ch).answerGone n).leaveQuay n).freeRecord n).store n := by
  obtain ⟨x, held⟩ := s.dropOwnHold_store n ch
  have quit : (((s.dropOwnHold n ch).answerGone n).leaveQuay n).store =
      { s.store with contexts := s.contexts.set n { s.ctx n with holder := x }, dueList := s.dueList.filter (· ≠ n) } := by
    rw [State.leaveQuay_store, State.answerGone_store, held]; rfl
  generalize ((s.dropOwnHold n ch).answerGone n).leaveQuay n = t at quit ⊢
  have ctx : t.ctx n = { s.ctx n with holder := x } := by
    rw [← State.store_contexts_getElem, quit]; simp
  have contexts := congrArg Store.contexts quit
  have dueList := congrArg Store.dueList quit
  have freeList := congrArg Store.freeList quit
  have idMap := congrArg Store.idMap quit
  have craneCount := congrArg Store.craneCount quit
  refine ⟨used, ?_, ?_, ?_, ?_, dueList⟩
  · show t.contexts.set n (Context.freeIn ((t.ctx n).gen + 1)) = _
    rw [ctx, show t.contexts = _ from contexts, Vector.set_set]; rfl
  · show t.freeList ++ [n] = _
    rw [show t.freeList = _ from freeList]
  · show (match (t.ctx n).identity with | some id => eraseId t.idMap id | none => t.idMap) = _
    rw [ctx, show t.idMap = _ from idMap]; rfl
  · show (if (t.ctx n).cls = some .crane then t.craneCount - 1 else t.craneCount) = _
    rw [ctx, show t.craneCount = _ from craneCount]; rfl

/-! ## A step -/

/-- Everything a step can do to the store. -/
inductive Store.Step (a b : Store) : Prop where
  /-- Every record is led on and the rest stands. -/
  | follows (h : a.Follows b)
  /-- ADMIT (R15). -/
  | admits (n : CtxNum) (id : Identity) (c : Context) (h : a.Admits b n id c)
  /-- RETIRE (R18, R19). -/
  | retires (n : CtxNum) (h : a.Retires b n)
  /-- FLUSH (R22). -/
  | empties (h : b = ⟨a.contexts.map Context.flushed, [], List.finRange 2048, [], 0⟩)
  /-- RESET_N (R170). -/
  | resets (h : b = State.reset.store)

theorem Store.Step.refl (a : Store) : a.Step a := .follows (.refl a)

theorem Store.Step.of_eq {a b : Store} (h : b = a) : a.Step b := .follows (.of_eq h)

theorem State.admission_storeStep (s : State) (ch : ChanNum) (f : AdmitFields) : s.store.Step (s.admission ch f).store := by
  unfold State.admission
  split
  · next h cls _ _ =>
    split
    · exact .refl _
    · split
      · exact .refl _
      · next fresh =>
        split
        · exact .refl _
        · split
          · exact .refl _
          · next n rest freeList =>
            split
            · exact .refl _
            · next room =>
              split
              · exact .refl _
              · split
                · exact .refl _
                · have below : cls = .crane → s.craneCount < 64 := fun hc => by
                    simpa [Config.craneCap, hc] using room
                  obtain ⟨c, admitted⟩ := State.admitAccepted_admits freeList fresh below ch h
                  exact .admits n f.identity c admitted
  · exact .refl _

theorem State.retirement_storeStep (s : State) (ch : ChanNum) (f : Half) : s.store.Step (s.retirement ch f).store := by
  unfold State.retirement
  split
  · exact .refl _
  · next n _ =>
    split
    · exact .refl _
    · next used =>
      split
      · exact .refl _
      · exact .retires n (State.retire_retires used ch)

theorem State.flushRequest_storeStep (s : State) (ch : ChanNum) : s.store.Step (s.flushRequest ch).store := by
  refine .empties ?_
  have kept := State.cancelParked_store s ch
  have contexts : (s.cancelParked ch).contexts = s.contexts := ((s.store_eq_iff _).1 kept).1
  unfold State.flushRequest
  rw [State.finish_store, State.clearPlans_store]
  simp only [State.emptied, State.store, contexts]

theorem State.inReset_store (s : State) : s.inReset.store = State.reset.store := by
  simp only [State.store, State.inReset]

theorem State.released_storeStep (s : State) : s.store.Step s.released.store := by
  unfold State.released
  split
  · exact .resets (by simp only [State.store])
  · exact .refl _

/-- Everything a command can do to the store. -/
theorem exec_storeStep {i : Instr} {s t : State} (h : exec i s = .next t) : s.store.Step t.store := by
  have request {α : Type} {run : α → State → State} (hrun : ∀ f (s : State), s.store.Follows (run f s).store) (ch : ChanNum)
      (code : Byte) (b : Body α) : s.store.Step (s.takeRequest ch code b run).store :=
    .follows (State.takeRequest_rel .refl hrun s ch code b)
  have quiet {α : Type} {run : α → State → State} (hrun : ∀ f (s : State), (run f s).store = s.store) (ch : ChanNum)
      (code : Byte) (b : Body α) : s.store.Step (s.takeRequest ch code b run).store :=
    .of_eq (State.takeRequest_store hrun s ch code b)
  have running {f : State → State} (hf : s.store.Follows (f s).store) : s.store.Step (s.whileRunning f).store :=
    .follows (State.whileRunning_rel .refl hf)
  cases i
  case admitReq ch b =>
    cases h
    exact State.takeRequest_rel .refl (fun f s => s.admission_storeStep ch f) s ch _ b
  case retire ch b =>
    cases h
    exact State.takeRequest_rel .refl (fun f s => s.retirement_storeStep ch f) s ch _ b
  case flush ch b =>
    cases h
    exact State.takeRequest_rel .refl (fun _ s => s.flushRequest_storeStep ch) s ch _ b
  case resetAssert => cases h; exact .resets s.inReset_store
  case resetRelease => cases h; exact s.released_storeStep
  case find ch b => cases h; exact quiet (fun f s => s.findRequest_store ch f) ch _ b
  case read ch b => cases h; exact quiet (fun f s => s.readRequest_store ch f) ch _ b
  case update ch b => cases h; exact request (fun f s => s.updateRequest_follows ch f) ch _ b
  case fetch ch b => cases h; exact request (fun f s => s.fetchRequest_follows ch f) ch _ b
  case store ch b => cases h; exact request (fun f s => s.storeRequest_follows ch f) ch _ b
  case release ch b => cases h; exact request (fun f s => s.releaseRequest_follows ch f) ch _ b
  case cancel ch b => cases h; exact running (.of_eq (s.cancelRequest_store ch b))
  case sweep ch b => cases h; exact quiet (fun f s => s.sweepRequest_store ch f) ch _ b
  case continueSweep ch b =>
    cases h; exact .of_eq (State.takeOnSweeping_store (fun s => s.continueRequest_store ch) s ch _ b)
  case stopSweep ch b =>
    cases h; exact .of_eq (State.takeOnSweeping_store (fun s => s.stopRequest_store ch) s ch _ b)
  case headSet ch b => cases h; exact quiet (fun f s => s.headSet_store ch f) ch _ b
  case headEnable ch b => cases h; exact quiet (fun f s => s.headEnable_store ch f) ch _ b
  case headDisable ch b => cases h; exact request (fun f s => s.headDisable_follows ch f) ch _ b
  case headRead ch b => cases h; exact quiet (fun f s => s.headRead_store ch f) ch _ b
  case survey ch b => cases h; exact quiet (fun f s => s.surveyRequest_store ch f) ch _ b
  case zoneSet ch b => cases h; exact quiet (fun f s => s.zoneSet_store ch f) ch _ b
  case zoneRead ch b => cases h; exact quiet (fun f s => s.zoneRead_store ch f) ch _ b
  case vesselSet ch b => cases h; exact quiet (fun f s => s.vesselSet_store ch f) ch _ b
  case vesselRead ch b => cases h; exact quiet (fun f s => s.vesselRead_store ch f) ch _ b
  case planRead ch b => cases h; exact quiet (fun f s => s.planRead_store ch f) ch _ b
  case paramSet ch b => cases h; exact quiet (fun f s => s.paramSet_store ch f) ch _ b
  case paramRead ch b => cases h; exact quiet (fun f s => s.paramRead_store ch f) ch _ b
  case eventRead ch b => cases h; exact quiet (fun _ s => s.eventRead_store ch) ch _ b
  case eventSetup ch b => cases h; exact quiet (fun f s => s.eventSetup_store ch f) ch _ b
  case illegal ch code =>
    simp only [exec, execIllegal] at h
    split at h
    · cases h
    · cases h; exact quiet (fun _ s => s.finish_store ch code .illegal) ch _ _
  case channelDiscard channel =>
    simp only [exec, execChannelDiscard] at h
    split at h
    · cases h; exact .refl _
    · cases h
  case frameDiscard l => cases h; exact .refl _
  case keepalive a sample => cases h; exact running (.of_eq (s.keepalive_store a sample))
  case arrival a tag sample position => cases h; exact running (s.contact_follows a tag sample position none)
  case report a tag sample payload => cases h; exact running (s.contact_follows a tag sample none (some payload))
  case malformedHeadFrame a => cases h; exact running (.of_eq (s.takeFrame_store a))
  case holdExpiry ch => cases h; exact running (s.holdExpiry_follows ch)
  case parkDeadline ch => cases h; exact running (.of_eq (s.parkDeadline_store ch))
  case idleDeadline ch => cases h; exact running (.of_eq (s.idleDeadline_store ch))
  case linkLoss a => cases h; exact running (s.linkLoss_follows a)
  case settleDeadline a => cases h; exact running (.of_eq (s.settle_store a))
  case surveyEndTime a => cases h; exact running (.of_eq (s.surveyEnds_store a))
  case lossDeadline n => cases h; exact running (s.lossDeadline_follows n)
  case orphanDeadline n => cases h; exact running (s.orphanDeadline_follows n)
  case confirmationDeadline n => cases h; exact running (s.confirmationDeadline_follows n)
  case staleDeadline n a => cases h; exact running (s.staleDeadline_follows n a)
  case dueExpiry => cases h; exact running s.dueExpiry_follows
  case partClockTick => cases h; exact running (.of_eq s.tick_store)
  case noCodeRequestFrame ch =>
    cases h
    refine running (.of_eq ?_)
    split <;> simp

/-- Everything a step can do to the store. -/
theorem step_storeStep {s t : State} (h : step s = .next t) : s.store.Step t.store := by
  unfold step at h
  split at h
  · have carriedOut := exec_storeStep h
    exact carriedOut
  · cases h; exact .of_eq s.transmit_store

end Sys2Proof.Machine
end

section
/-! The tier 3 statements about the store: what one step keeps of R4 and its ranges, of the due list (R150), and of free list,
identity map and crane count (R9 to R11). -/

namespace Sys2Proof.Machine

open Sys2Proof

/-! ## Records that are rewritten -/

theorem State.ctx_of_set {s t : State} {n : CtxNum} {c : Context} (h : t.store.contexts = s.store.contexts.set n c)
    (m : CtxNum) : t.ctx m = if n = m then c else s.ctx m := by
  rw [← State.setCtx_ctx]
  exact congrArg (fun v : Vector Context 2048 => v[m]) h

@[simp] theorem Context.flushed_state (c : Context) : c.flushed.state = .free := by
  unfold Context.flushed
  split
  · next h => exact h
  · rfl

theorem Context.freeIn_lawful (gen : BitVec 5) : (Context.freeIn gen).Lawful := rfl

theorem Context.freeIn_values (gen : BitVec 5) : (Context.freeIn gen).ValuesInRange :=
  ⟨fun p hp => by simp [Context.freeIn] at hp, fun r hr => by simp [Context.freeIn] at hr⟩

/-- Every record after a FLUSH (R22). -/
theorem State.ctx_of_flushed {s t : State}
    (h : t.store = ⟨s.store.contexts.map Context.flushed, [], List.finRange 2048, [], 0⟩) (n : CtxNum) :
    t.ctx n = (s.ctx n).flushed := by
  rw [← State.store_contexts_getElem t, h]
  exact Vector.getElem_map Context.flushed n.isLt

theorem State.reset_ctx (n : CtxNum) : State.reset.ctx n = Context.freeIn 0 := by
  simp [State.ctx, State.reset]

/-! ## Context records and the due list (R4, R146, R150) -/

/-- A property of records that FREE records have, and that admitted ones and those led on have, holds of every record after a
step. -/
theorem Store.Step.records {s t : State} (h : s.store.Step t.store) {P : Context → Prop}
    (free : ∀ gen, P (Context.freeIn gen)) (admitted : ∀ n id c, s.store.Admits t.store n id c → P c)
    (leads : ∀ c d : Context, c.LeadsTo d → P c → P d) (hs : ∀ n : CtxNum, P (s.ctx n)) (n : CtxNum) : P (t.ctx n) := by
  cases h with
  | follows h => exact leads _ _ (h.contexts n) (hs n)
  | admits m id c h =>
    rw [State.ctx_of_set h.contexts]
    split
    · exact admitted m id c h
    · exact hs n
  | retires m h =>
    rw [State.ctx_of_set h.contexts]
    split
    · exact free _
    · exact hs n
  | empties h =>
    rw [State.ctx_of_flushed h]
    unfold Context.flushed
    split
    · exact hs n
    · exact free _
  | resets h =>
    rw [State.ctx_of_store_eq h, State.reset_ctx]
    exact free 0

theorem step_keeps_contextsLawful {s t : State} (h : step s = .next t) (hs : s.ContextsLawful) : t.ContextsLawful :=
  (step_storeStep h).records Context.freeIn_lawful (fun _ _ _ h => h.lawful) (fun _ _ h => h.lawful) hs

theorem step_keeps_valuesInRange {s t : State} (h : step s = .next t) (hs : s.ValuesInRange) : t.ValuesInRange :=
  (step_storeStep h).records Context.freeIn_values (fun _ _ _ h => h.values) (fun _ _ h => h.values) hs

/-- A number on a lawful free list is that of a record without a due time. -/
theorem Store.Admits.no_due {s : State} {b : Store} {n : CtxNum} {id : Identity} {c : Context} (h : s.store.Admits b n id c)
    (free : s.FreeListLawful) (contexts : s.ContextsLawful) : (s.ctx n).due = none := by
  have listed : n ∈ s.freeList := by rw [show s.freeList = _ from h.freeList]; exact List.mem_cons_self ..
  exact ((contexts n).of_free ((free.2 n).1 listed)).2

theorem step_keeps_dueListLawful {s t : State} (h : step s = .next t) (free : s.FreeListLawful)
    (contexts : s.ContextsLawful) (hs : s.DueListLawful) : t.DueListLawful := by
  obtain ⟨nodup, mem⟩ := hs
  cases step_storeStep h with
  | follows h => exact h.due ⟨nodup, mem⟩
  | admits n id c h => exact h.due (h.no_due free contexts) ⟨nodup, mem⟩
  | retires n h =>
    have dueList : t.dueList = s.dueList.filter (· ≠ n) := h.dueList
    refine ⟨dueList ▸ nodup.filter _, fun m => ?_⟩
    rw [dueList, List.mem_filter, mem m, State.ctx_of_set h.contexts]
    by_cases e : n = m
    · simp [e, Context.freeIn, Context.due]
    · simp [e, Ne.symm e]
  | empties h =>
    have dueList : t.dueList = [] := congrArg Store.dueList h
    refine ⟨dueList ▸ List.nodup_nil, fun m => ?_⟩
    have noDue : (s.ctx m).flushed.due = none := by
      unfold Context.flushed
      split
      · next hst => exact ((contexts m).of_free hst).2
      · rfl
    simp [dueList, State.ctx_of_flushed h, noDue]
  | resets h =>
    have dueList : t.dueList = [] := congrArg Store.dueList h
    refine ⟨dueList ▸ List.nodup_nil, fun m => ?_⟩
    rw [State.ctx_of_store_eq h, State.reset_ctx, dueList]
    simp [Context.freeIn, Context.due]

/-- Settles O55: each law from what a step can do to the store. -/
theorem contextRecordsStayLawful : Obligations.ContextRecordsStayLawful :=
  fun _ _ h free contexts values due =>
    ⟨step_keeps_contextsLawful h contexts, step_keeps_valuesInRange h values, step_keeps_dueListLawful h free contexts due⟩

/-! ## The free list (R10) -/

theorem step_keeps_freeListLawful {s t : State} (h : step s = .next t) (hs : s.FreeListLawful) : t.FreeListLawful := by
  obtain ⟨nodup, mem⟩ := hs
  cases step_storeStep h with
  | follows h =>
    have freeList : t.freeList = s.freeList := h.freeList
    exact ⟨freeList ▸ nodup, fun m => by rw [freeList, mem m]; exact (h.contexts m).free.symm⟩
  | admits n id c h =>
    have freeList : s.freeList = n :: t.freeList := h.freeList
    rw [freeList, List.nodup_cons] at nodup
    refine ⟨nodup.2, fun m => ?_⟩
    have old := mem m
    rw [freeList, List.mem_cons] at old
    rw [State.ctx_of_set h.contexts]
    by_cases e : n = m
    · subst e; simp [nodup.1, h.used]
    · simpa [e, Ne.symm e] using old
  | retires n h =>
    have freeList : t.freeList = s.freeList ++ [n] := h.freeList
    have absent : n ∉ s.freeList := fun hn => h.used ((mem n).1 hn)
    refine ⟨?_, fun m => ?_⟩
    · rw [freeList, List.nodup_append]
      exact ⟨nodup, List.pairwise_singleton _ n, by rintro x hx y hy rfl; exact absent (List.mem_singleton.1 hy ▸ hx)⟩
    · rw [freeList, List.mem_append, mem m, State.ctx_of_set h.contexts]
      by_cases e : n = m
      · simp [e, Context.freeIn]
      · simp [e, Ne.symm e]
  | empties h =>
    have freeList : t.freeList = List.finRange 2048 := by simpa only [State.store] using congrArg Store.freeList h
    exact ⟨by rw [freeList]; exact List.nodup_finRange _, fun m => by simp [freeList, State.ctx_of_flushed h]⟩
  | resets h =>
    have freeList : t.freeList = List.finRange 2048 := by
      simpa only [State.store, State.reset] using congrArg Store.freeList h
    refine ⟨by rw [freeList]; exact List.nodup_finRange _, fun m => ?_⟩
    rw [State.ctx_of_store_eq h, State.reset_ctx, freeList]
    simp [Context.freeIn]

/-! ## The identity map (R9) -/

/-- In a map whose keys rise an identity stands once. -/
theorem eq_of_mem_of_rising {l : List (Identity × CtxNum)} (rising : l.Pairwise fun x y => x.1.toNat < y.1.toNat)
    {id : Identity} {m n : CtxNum} (hm : (id, m) ∈ l) (hn : (id, n) ∈ l) : m = n := by
  induction l with
  | nil => cases hm
  | cons e l ih =>
    obtain ⟨first, rest⟩ := List.pairwise_cons.1 rising
    rcases List.mem_cons.1 hm with rfl | hm <;> rcases List.mem_cons.1 hn with hn | hn
    · exact (congrArg Prod.snd hn).symm
    · exact absurd (first _ hn) (Nat.lt_irrefl _)
    · exact absurd (hn ▸ first _ hm) (Nat.lt_irrefl _)
    · exact ih rest hm hn

theorem step_keeps_idMapLawful {s t : State} (h : step s = .next t) (contexts : s.ContextsLawful)
    (free : s.FreeListLawful) (hs : s.IdMapLawful) : t.IdMapLawful := by
  obtain ⟨rising, mem⟩ := hs
  cases step_storeStep h with
  | follows h =>
    have idMap : t.idMap = s.idMap := h.idMap
    refine ⟨idMap ▸ rising, fun id m => ?_⟩
    have led : (s.ctx m).LeadsTo (t.ctx m) := h.contexts m
    rw [idMap, mem id m, led.identity, Ne, Ne, led.free]
  | admits n id c h =>
    have idMap : t.idMap = insertId id n s.idMap := h.idMap
    have listed : n ∈ s.freeList := by rw [show s.freeList = _ from h.freeList]; exact List.mem_cons_self ..
    have unused : (s.ctx n).state = .free := (free.2 n).1 listed
    have fresh : ∀ e ∈ s.idMap, e.1 ≠ id := fun e he hid => lookupId_none h.fresh e.2 (hid ▸ he)
    refine ⟨idMap ▸ pairwise_insertId n fresh rising, fun id' m => ?_⟩
    rw [idMap, mem_insertId, mem id' m, State.ctx_of_set h.contexts, Prod.mk.injEq]
    by_cases e : n = m
    · subst e; simp [unused, h.used, h.identity, eq_comm]
    · simp [e, Ne.symm e]
  | retires n h =>
    obtain ⟨id, hid⟩ := Option.isSome_iff_exists.1 ((contexts n).parts h.used).1
    have idMap : t.idMap = eraseId s.idMap id := by
      have := h.idMap
      rwa [State.store_contexts_getElem, hid] at this
    have own : (id, n) ∈ s.idMap := (mem id n).2 ⟨h.used, hid⟩
    refine ⟨idMap ▸ rising.filter _, fun id' m => ?_⟩
    rw [idMap, mem_eraseId, mem id' m, State.ctx_of_set h.contexts]
    by_cases e : n = m
    · subst e
      simp only [if_true, Context.freeIn, ne_eq, not_true_eq_false, false_and, iff_false, not_and, Classical.not_not]
      rintro ⟨-, hid'⟩
      exact Option.some.inj (hid'.symm.trans hid)
    · simp only [e, if_false]
      refine ⟨fun hm => hm.1, fun hm => ⟨hm, fun hid' => e ?_⟩⟩
      exact eq_of_mem_of_rising rising own ((mem id m).2 (hid' ▸ hm))
  | empties h =>
    have idMap : t.idMap = [] := congrArg Store.idMap h
    exact ⟨idMap ▸ .nil, fun id m => by simp [idMap, State.ctx_of_flushed h]⟩
  | resets h =>
    have idMap : t.idMap = [] := congrArg Store.idMap h
    refine ⟨idMap ▸ .nil, fun id m => ?_⟩
    rw [State.ctx_of_store_eq h, State.reset_ctx, idMap]
    simp [Context.freeIn]

/-! ## The crane count (R11) -/

/-- The cranes in use of a table of records. -/
def Store.cranes (a : Store) : Nat := a.contexts.countP Context.isCrane

theorem State.craneCountLawful_iff (s : State) :
    s.CraneCountLawful ↔ s.craneCount = s.store.cranes ∧ s.craneCount ≤ 64 := by
  rw [State.CraneCountLawful, Vector.countP_toList]; rfl

theorem Context.isCrane_of_free {c : Context} (h : c.state = .free) : c.isCrane = false := by
  simp [Context.isCrane, h]

theorem Store.cranes_eq_zero {a : Store} (h : ∀ n : CtxNum, a.contexts[n].state = .free) : a.cranes = 0 := by
  refine Vector.countP_eq_zero.2 fun c hc => ?_
  obtain ⟨i, hi, rfl⟩ := Vector.getElem_of_mem hc
  exact ne_true_of_eq_false (Context.isCrane_of_free (h ⟨i, hi⟩))

theorem Store.cranes_set {a b : Store} {n : CtxNum} {c : Context} (h : b.contexts = a.contexts.set n c) :
    b.cranes = a.cranes - (if a.contexts[n].isCrane then 1 else 0) + if c.isCrane then 1 else 0 := by
  rw [Store.cranes, h, Vector.countP_set]; rfl

theorem Store.cranes_pos {a : Store} {n : CtxNum} (h : a.contexts[n].isCrane = true) : 0 < a.cranes :=
  Vector.countP_pos_iff.2 ⟨_, Vector.getElem_mem n.isLt, h⟩

theorem Context.LeadsTo.isCrane {c d : Context} (h : c.LeadsTo d) : d.isCrane = c.isCrane := by
  simp only [Context.isCrane, h.cls, ne_eq, h.free]

theorem Store.Follows.cranes {a b : Store} (h : a.Follows b) : b.cranes = a.cranes := by
  have table (x : Store) : x.cranes = (List.finRange 2048).countP fun n => x.contexts[n].isCrane := by
    have records : x.contexts.toList = (List.finRange 2048).map fun n => x.contexts[n] :=
      List.ext_getElem (by simp) (by simp)
    rw [Store.cranes, ← Vector.countP_toList, records, List.countP_map]
    rfl
  rw [table, table]
  exact List.countP_congr fun n _ => by rw [(h.contexts n).isCrane]

theorem step_keeps_craneCountLawful {s t : State} (h : step s = .next t) (free : s.FreeListLawful)
    (hs : s.CraneCountLawful) : t.CraneCountLawful := by
  obtain ⟨count, most⟩ := s.craneCountLawful_iff.1 hs
  rw [State.craneCountLawful_iff]
  cases step_storeStep h with
  | follows h =>
    have craneCount : t.craneCount = s.craneCount := h.craneCount
    rw [craneCount, h.cranes]; exact ⟨count, most⟩
  | admits n id c h =>
    have listed : n ∈ s.freeList := by rw [show s.freeList = _ from h.freeList]; exact List.mem_cons_self ..
    have unused : (s.ctx n).isCrane = false := Context.isCrane_of_free ((free.2 n).1 listed)
    have craneCount : t.craneCount = if c.cls = some .crane then s.craneCount + 1 else s.craneCount := h.craneCount
    have cranes := Store.cranes_set h.contexts
    have made : c.isCrane = decide (c.cls = some .crane) := by simp [Context.isCrane, h.used]
    rw [craneCount, cranes, State.store_contexts_getElem, unused, made, count]
    by_cases hc : c.cls = some .crane
    · have := h.room hc
      have : s.craneCount < 64 := this
      simp [hc]; omega
    · simp [hc]; omega
  | retires n h =>
    have craneCount : t.craneCount = if (s.ctx n).cls = some .crane then s.craneCount - 1 else s.craneCount := h.craneCount
    have cranes := Store.cranes_set h.contexts
    have used : (s.ctx n).isCrane = decide ((s.ctx n).cls = some .crane) := by
      simp [Context.isCrane, show (s.ctx n).state ≠ .free from h.used]
    rw [craneCount, cranes, State.store_contexts_getElem, used, Context.isCrane_of_free rfl, count]
    by_cases hc : (s.ctx n).cls = some .crane
    · simp [hc]; omega
    · simp [hc]; omega
  | empties h =>
    have craneCount : t.craneCount = 0 := congrArg Store.craneCount h
    rw [craneCount, Store.cranes_eq_zero fun n => by simp [h]]
    exact ⟨rfl, by decide⟩
  | resets h =>
    have craneCount : t.craneCount = 0 := congrArg Store.craneCount h
    rw [craneCount, Store.cranes_eq_zero fun n => by rw [h, State.store_contexts_getElem, State.reset_ctx]; rfl]
    exact ⟨rfl, by decide⟩

/-- Settles O57: each law from what a step can do to the store. -/
theorem theStoreStaysConsistent : Obligations.TheStoreStaysConsistent :=
  fun _ _ h contexts free idMap cranes =>
    ⟨step_keeps_freeListLawful h free, step_keeps_idMapLawful h contexts free idMap,
      step_keeps_craneCountLawful h free cranes⟩

end Sys2Proof.Machine
end

section
/-! The tags of contexts (R7, R8), the checks of ADMIT (R13), and the context that an accepted ADMIT makes (R12, R14, R15). -/

namespace Sys2Proof.Machine

open Sys2Proof

/-! ## Tags (R7, R8) -/

theorem State.resolve_eq_some_iff (s : State) (tag : Half) (n : CtxNum) :
    s.resolve tag = some n ↔
      n = tagNumber tag ∧ (s.ctx n).state ≠ .free ∧ (s.ctx n).gen.toNat = tag.toNat / 2048 := by
  refine ⟨fun h => ?_, fun ⟨hn, used, gen⟩ => ?_⟩
  · have number := State.resolve_number h
    refine ⟨number, State.resolve_used h, ?_⟩
    unfold State.resolve at h
    split at h
    · next hc => rw [number]; exact hc.2
    · cases h
  · subst hn
    exact if_pos ⟨used, gen⟩

theorem tagOf_generation (gen : BitVec 5) (n : CtxNum) : (tagOf gen n).toNat / 2048 = gen.toNat := by
  have hn := n.isLt
  rw [tagOf_toNat]; omega

/-- Settles O12: the number of a tag is its low 11 bits and the generation its high 5. -/
theorem tagsNameOneContext : Obligations.TagsNameOneContext := by
  refine ⟨fun s n => tagOf_toNat _ _, fun s tag n => ?_, fun s n used => ?_, fun s m n same => ?_⟩
  · rw [State.resolve_eq_some_iff, Fin.ext_iff]; rfl
  · exact (s.resolve_eq_some_iff _ n).2
      ⟨(tagNumber_tagOf ..).symm, used, (tagOf_generation (s.ctx n).gen n).symm⟩
  · have numbers := congrArg tagNumber same
    rwa [State.tag, State.tag, tagNumber_tagOf, tagNumber_tagOf] at numbers

/-! ## The operands of ADMIT (R12, R13) -/

theorem headOf_eq_none {b : Byte} (h : 15 < b.toNat) : headOf b = none := dif_neg (by omega)

theorem classOf_eq_none {b : Byte} (h : 2 < b.toNat) : classOf b = none := by
  unfold classOf
  split
  · omega
  · omega
  · omega
  · rfl

theorem setBelongs_iff (f : FieldSet) (c : TermClass) : setBelongs f c = true ↔ f.Belongs c := by
  cases c <;> simp [setBelongs, FieldSet.Belongs, and_assoc]

theorem setBelongs_eq_false {f : FieldSet} {c : TermClass} : setBelongs f c = false ↔ ¬ f.Belongs c := by
  rw [← setBelongs_iff, Bool.not_eq_true]

/-- R12: the slot count that an ADMIT of a CRANE applies. -/
theorem admitProfile_slotCount (f : FieldSet) : (admitProfile f .crane).slotCount.getD 2 = f.admitSlots := rfl

theorem exec_admit {s : State} {ch : ChanNum} (ready : s.Ready ch) (f : AdmitFields) :
    exec (.admitReq ch (.fields f)) s = .next ((s.setChanState ch .busy).admission ch f) :=
  congrArg Host.Outcome.next (State.takeRequest_ready ready ..)

/-! ## The checks (R13) -/

/-- A head or a class that names nothing. -/
theorem State.admission_unnamed {f : AdmitFields} (h : headOf f.head = none ∨ classOf f.cls = none) (s : State)
    (ch : ChanNum) : s.admission ch f = s.finish ch admitCode .badField := by
  unfold State.admission
  rcases h with h | h
  · rw [h]
  · rw [h]; cases headOf f.head <;> rfl

/-- Settles O9: an ADMIT on an IDLE channel runs the checks, and the answer of the first that fails is its only change. -/
theorem admissionChecks : Obligations.AdmissionChecks := by
  intro ch f s ready refusedWith
  have refused (r : Reply) (h : (s.setChanState ch .busy).admission ch f = (s.setChanState ch .busy).finish ch admitCode r) :
      refusedWith r := by
    show exec _ s = _
    rw [exec_admit ready, h, State.busy_finish ready.2]; rfl
  refine ⟨fun unnamed => refused _ (State.admission_unnamed ?_ ..), fun h c hh hc => ⟨fun alien => ?_, fun belongs => ?_⟩⟩
  · exact unnamed.imp headOf_eq_none classOf_eq_none
  · exact refused _ (by simp [State.admission, hh, hc, setBelongs_eq_false.2 alien])
  have own := (setBelongs_iff _ _).2 belongs
  refine ⟨fun n known => ?_, fun fresh => ⟨fun out => ?_, fun inService => ?_⟩⟩
  · exact refused _ (by simp [State.admission, hh, hc, own, known])
  · have out' : s.inService h = false := decide_eq_false out
    exact refused _ (by simp [State.admission, hh, hc, own, fresh, out'])
  have serves : s.inService h = true := decide_eq_true inService
  refine ⟨fun none => ?_, fun some => ?_⟩
  · exact refused _ (by simp [State.admission, hh, hc, own, fresh, serves, none])
  obtain ⟨n, rest, free⟩ := List.exists_cons_of_ne_nil some
  refine ⟨fun ⟨crane, most⟩ => ?_, fun room => ⟨fun full => ?_, fun place ⟨crane, short⟩ => ?_⟩⟩
  · subst crane
    exact refused _ (by simp [State.admission, hh, hc, own, fresh, serves, free, Config.craneCap, most])
  · exact refused _ (by simp [State.admission, hh, hc, own, fresh, serves, free, Config.craneCap, room, full])
  · subst crane
    have below : ¬ 64 ≤ s.craneCount := fun h => room ⟨rfl, h⟩
    exact refused _ (by
      simp [State.admission, hh, hc, own, fresh, serves, free, Config.craneCap, below, Nat.not_le.2 place,
        admitProfile_slotCount, short])

end Sys2Proof.Machine
end

section
/-! The context that an accepted ADMIT makes (R7, R12, R14, R15, R132): the next state whole. -/

namespace Sys2Proof.Machine

open Sys2Proof

/-- Everything an ADMIT does that passes the checks (R13). -/
theorem State.admission_accepted {s : State} {f : AdmitFields} {h : HeadNum} {c : TermClass} {n : CtxNum}
    {rest : List CtxNum} (hh : headOf f.head = some h) (hc : classOf f.cls = some c) (belongs : f.set.Belongs c)
    (fresh : lookupId s.idMap f.identity = none) (inService : s.inService h = true) (free : s.freeList = n :: rest)
    (room : c = .crane → s.craneCount < 64) (place : (s.headRec h).load < (s.headRec h).capacity)
    (slots : c = .crane → f.set.admitSlots ≤ s.freeCount h) (ch : ChanNum) :
    s.admission ch f = s.admitAccepted ch f c h n rest := by
  have own := (setBelongs_iff _ _).2 belongs
  cases c with
  | crane =>
    have below := Nat.not_le.2 (room rfl)
    have enough := Nat.not_lt.2 (slots rfl)
    simp [State.admission, hh, hc, own, fresh, inService, free, Config.craneCap, below, Nat.not_le.2 place,
      admitProfile_slotCount, enough]
  | reefer => simp [State.admission, hh, hc, own, fresh, inService, free, Nat.not_le.2 place]
  | general => simp [State.admission, hh, hc, own, fresh, inService, free, Nat.not_le.2 place]

/-- The order of the due list is read from the records alone. -/
theorem State.dueBefore_congr {s t : State} (h : t.contexts = s.contexts) : t.dueBefore = s.dueBefore := by
  funext a b
  simp only [State.dueBefore, State.ctx, h]

theorem State.addLoad_inService (s : State) (h m : HeadNum) : (s.addLoad h).inService m = s.inService m := by
  rw [State.inService, State.inService, State.addLoad, State.setHead_headRec]
  split
  · next e => rw [e]
  · rfl

/-- R129, R132: everything a reservation of active slots does on a head in service. -/
theorem State.reserveActive_eq {s : State} {h : HeadNum} (inService : s.inService h = true) (n : CtxNum) (k : Nat) :
    s.reserveActive h n k = { s with
      plans := s.plans.set h ((s.plan h).fill (s.lowestFree h k) (.active n))
      headTx := queueOn s.headTx h (planMessages (s.lowestFree h k) (.active (s.tag n))) } :=
  State.setSlots_eq inService _ _

/-- R15: the new record in its place, on a head in service. -/
theorem State.withAdmitted_eq {s : State} {h : HeadNum} (inService : s.inService h = true) (n : CtxNum) (c : Context)
    (id : Identity) (rest : List CtxNum) (k : Nat) :
    s.withAdmitted n c id rest h k = { s with
      contexts := s.contexts.set n c, freeList := rest, idMap := insertId id n s.idMap
      craneCount := if c.cls = some .crane then s.craneCount + 1 else s.craneCount
      heads := s.heads.set h { s.headRec h with load := (s.headRec h).load + 1 }
      plans := if c.cls = some .crane then s.plans.set h ((s.plan h).fill (s.lowestFree h k) (.active n)) else s.plans
      headTx := if c.cls = some .crane then
          queueOn s.headTx h (planMessages (s.lowestFree h k) (.active (tagOf c.gen n)))
        else s.headTx } := by
  have tag (x : State) (hx : x.contexts = s.contexts.set n c) : x.tag n = tagOf c.gen n := by
    have ctx : x.ctx n = c := by rw [State.ctx, hx]; simp
    rw [State.tag, ctx]
  unfold State.withAdmitted
  dsimp only
  split
  · rw [State.reserveActive_eq, tag]
    · rfl
    · rfl
    · exact (State.addLoad_inService _ h h).trans inService
  · rfl

/-- R75, R150: everything an entry into ACTIVE does to a context whose class part is that of its class. -/
theorem State.enterActive_eq {s : State} {n : CtxNum}
    (part : (s.ctx n).reefer.isSome = true ↔ (s.ctx n).cls = some .reefer) :
    s.enterActive n = { s with
      contexts := s.contexts.set n ((s.ctx n).started s.clock s.params.lossWindow)
      dueList := if (s.ctx n).cls = some .reefer then
          (s.placedInDueList n ((s.ctx n).started s.clock s.params.lossWindow)).dueList
        else s.dueList } := by
  have unchanged : s = { s with contexts := s.contexts.set n (s.ctx n) } := (s.setCtx_ctx_eq n).symm
  unfold State.enterActive Context.started
  dsimp only
  cases hcls : (s.ctx n).cls with
  | none => exact unchanged
  | some cls =>
    cases cls with
    | crane => rfl
    | general => exact unchanged
    | reefer =>
      obtain ⟨r, hr⟩ := Option.isSome_iff_exists.1 (part.2 hcls)
      rw [hr]; rfl

theorem State.placedInDueList_congr {s t : State} {n : CtxNum} {c : Context}
    (contexts : t.contexts.set n c = s.contexts.set n c) (dueList : t.dueList = s.dueList) :
    (t.placedInDueList n c).dueList = (s.placedInDueList n c).dueList := by
  have order := State.dueBefore_congr (s := { s with contexts := s.contexts.set n c })
    (t := { t with contexts := t.contexts.set n c }) contexts
  unfold State.placedInDueList
  dsimp only
  rw [order, dueList]

/-- Settles O10: the new record in its place, its entry into ACTIVE, and the answer on the channel as it stood. -/
theorem admissionMakesTheContext : Obligations.AdmissionMakesTheContext := by
  intro ch f s h c n rest floor ready hh hc belongs fresh link hfloor free room place slots
  have inService : s.inService h = true := decide_eq_true link
  have accepted := State.admission_accepted (s := s.setChanState ch .busy) hh hc belongs fresh inService free room place slots ch
  intro k period band rise tag lowest record
  rw [exec_admit ready, accepted, State.admitAccepted_eq]
  generalize hb : s.setChanState ch .busy = b
  have made := State.withAdmitted_eq (s := b) (h := h) (by rw [← hb]; exact inService) n (b.newRecord f c h n)
    f.identity rest ((admitProfile f.set c).slotCount.getD 2)
  generalize b.withAdmitted n (b.newRecord f c h n) f.identity rest h ((admitProfile f.set c).slotCount.getD 2) = w at made ⊢
  have new : w.ctx n = b.newRecord f c h n := by rw [State.ctx, made]; simp
  have entries : b.firstEntries h f.sample = [Entry.create h (margin f.sample.toNat floor) s.clock s.params.entryLifetime] := by
    rw [← hb]
    show s.firstEntries h f.sample = _
    simp only [State.firstEntries, hfloor]
  have started : (w.ctx n).started w.clock w.params.lossWindow = record := by
    rw [new, State.newRecord, entries, made, ← hb]
    cases c <;> rfl
  have entered := State.enterActive_eq (s := w) (n := n) (by
    obtain ⟨-, -, -, reeferPart⟩ := (admittedContext_unstarted (b.ctx n).gen f c h _ b.clock (b.firstEntries h f.sample)).parts
    rw [new]; exact reeferPart)
  rw [started] at entered
  generalize ht : w.enterActive n = t at entered ⊢
  have tagged : t.tag n = tag := by
    have ctx : t.ctx n = record := by rw [State.ctx, entered]; simp
    rw [State.tag, ctx]; rfl
  have channels : t.channels = (s.setChanState ch .busy).channels := by rw [entered, made, ← hb]
  have contexts : w.contexts.set n record = s.contexts.set n record := by
    rw [made, ← hb]; exact Vector.set_set ..
  have dueList := State.placedInDueList_congr contexts (by rw [made, ← hb]; rfl)
  rw [State.finish_of_busy ready.2 channels, tagged, entered, contexts, dueList, new, made, ← hb]
  refine congrArg Host.Outcome.next ?_
  cases c <;> rfl

end Sys2Proof.Machine
end

section
/-! RETIRE: its refusals, and the retirement of a context that no other channel holds (R17 to R19, R138). -/

namespace Sys2Proof.Machine

open Sys2Proof

theorem ctxOf_eq_none {w : Half} (h : 2047 < w.toNat) : ctxOf w = none := dif_neg (by omega)

theorem exec_retire {s : State} {ch : ChanNum} (ready : s.Ready ch) (w : Half) :
    exec (.retire ch (.fields w)) s = .next ((s.setChanState ch .busy).retirement ch w) :=
  congrArg Host.Outcome.next (State.takeRequest_ready ready ..)

/-! ## The channels: the own hold and the parked ones (R17) -/

/-- R17: channels leave PARKED one after another, each with the answer GONE. -/
def State.allGone (s : State) (l : List ChanNum) : State :=
  l.foldl (fun s c => (s.answer c fetchCode .gone).unpark c) s

/-- A channel record that leaves PARKED for IDLE. -/
def Channel.unparked (c : Channel) : Channel := { c with state := .idle, parkedOn := none, parkAt := none }

theorem State.allGone_chan (s : State) (l : List ChanNum) (p : ChanNum) :
    (s.allGone l).chan p = if p ∈ l then (s.chan p).unparked else s.chan p := by
  induction l generalizing s with
  | nil => simp [State.allGone]
  | cons c l ih =>
    have first : s.allGone (c :: l) = ((s.answer c fetchCode .gone).unpark c).allGone l := rfl
    rw [first, ih, State.unpark_chan]
    by_cases e : c = p
    · subst e; simp [Channel.unparked]
    · simp [e, Ne.symm e]

/-- Everything the answers to parked channels do beside the channel records. -/
theorem State.allGone_eq (s : State) (l : List ChanNum) :
    s.allGone l = { s with
      channels := (s.allGone l).channels, controlTx := s.controlTx ++ l.map fun p => ⟨p, fetchCode, .gone⟩ } := by
  induction l generalizing s with
  | nil => simp [State.allGone]
  | cons c l ih =>
    have first : s.allGone (c :: l) = ((s.answer c fetchCode .gone).unpark c).allGone l := rfl
    rw [first, ih]
    apply State.ext <;> simp

theorem State.answerGone_eq (s : State) (n : CtxNum) :
    s.answerGone n = { s with
      channels := (s.allGone (s.wait n)).channels, waits := s.waits.set n []
      controlTx := s.controlTx ++ (s.wait n).map fun p => ⟨p, fetchCode, .gone⟩ } := by
  have gone := s.allGone_eq (s.wait n)
  show (s.allGone (s.wait n)).setWait n [] = _
  generalize (s.allGone (s.wait n)).channels = v at gone ⊢
  rw [gone]; rfl

theorem State.dropOwnHold_chan (s : State) (n : CtxNum) (ch p : ChanNum) :
    (s.dropOwnHold n ch).chan p =
      if p = ch ∧ (s.ctx n).holder = some ch then { s.chan p with held := none, holdAt := none } else s.chan p := by
  unfold State.dropOwnHold
  split
  · next own =>
    rw [State.dropHold_chan]
    by_cases e : ch = p
    · subst e; simp [own]
    · simp [e, Ne.symm e]
  · next other => simp [other]

/-- Everything the dropping of the own hold does. -/
theorem State.dropOwnHold_eq (s : State) (n : CtxNum) (ch : ChanNum) :
    ∃ x, s.dropOwnHold n ch = { s with
      contexts := s.contexts.set n { s.ctx n with holder := x }, channels := (s.dropOwnHold n ch).channels } := by
  unfold State.dropOwnHold
  split
  · exact ⟨none, rfl⟩
  · exact ⟨(s.ctx n).holder, (s.setCtx_ctx_eq n).symm⟩

/-- R17: the own hold is dropped, and every parked channel answered GONE. -/
def State.letGo (s : State) (n : CtxNum) (ch : ChanNum) : State := (s.dropOwnHold n ch).answerGone n

theorem State.letGo_eq (s : State) (n : CtxNum) (ch : ChanNum) :
    ∃ x, s.letGo n ch = { s with
      contexts := s.contexts.set n { s.ctx n with holder := x }, channels := (s.letGo n ch).channels
      waits := s.waits.set n [], controlTx := s.controlTx ++ (s.wait n).map fun p => ⟨p, fetchCode, .gone⟩ } := by
  obtain ⟨x, dropped⟩ := s.dropOwnHold_eq n ch
  have gone := (s.dropOwnHold n ch).answerGone_eq n
  refine ⟨x, ?_⟩
  unfold State.letGo
  generalize (s.dropOwnHold n ch).answerGone n = t at gone ⊢
  rw [dropped] at gone
  rw [gone]
  rfl

theorem State.letGo_chan (s : State) (n : CtxNum) (ch p : ChanNum) :
    (s.letGo n ch).chan p =
      let r := if p = ch ∧ (s.ctx n).holder = some ch then { s.chan p with held := none, holdAt := none } else s.chan p
      if p ∈ s.wait n then r.unparked else r := by
  have wait : (s.dropOwnHold n ch).wait n = s.wait n := by
    unfold State.dropOwnHold; split <;> rfl
  show ((s.dropOwnHold n ch).allGone ((s.dropOwnHold n ch).wait n)).chan p = _
  rw [State.allGone_chan, State.dropOwnHold_chan, wait]

/-- The requesting channel, BUSY while it retires a context, is IDLE as before when it is answered. -/
theorem State.letGo_idle_chan {s : State} {ch : ChanNum} (idle : (s.chan ch).state = .idle) (n : CtxNum) (p : ChanNum) :
    (if ch = p then { ((s.setChanState ch .busy).letGo n ch).chan ch with state := .idle }
      else ((s.setChanState ch .busy).letGo n ch).chan p) =
      let r := if p = ch ∧ (s.ctx n).holder = some ch then { s.chan p with held := none, holdAt := none } else s.chan p
      if p ∈ s.wait n then r.unparked else r := by
  rw [State.letGo_chan, State.letGo_chan]
  by_cases e : ch = p
  · subst e
    have record : ({ s.chan ch with state := .idle } : Channel) = s.chan ch := by rw [← idle]
    by_cases own : (s.ctx n).holder = some ch
    · by_cases parked : ch ∈ s.wait n <;> simp [State.setChanState_chan, own, parked, Channel.unparked, idle]
    · by_cases parked : ch ∈ s.wait n
      · simp [State.setChanState_chan, own, parked, Channel.unparked]
      · simpa [State.setChanState_chan, own, parked] using record
  · simp [State.setChanState_chan, e, Ne.symm e]

/-! ## The quay: slots, load and messages (R18, R138) -/

/-- R18: every slot of a use on a head, where one is named, is freed. -/
def State.clearOn (s : State) (o : Option HeadNum) (u : SlotUse) : State :=
  s.onHead o fun s h => s.setSlots h ((s.plan h).slotsWith u) .free

/-- Nothing but plans and head queues changes when slots are freed. -/
theorem State.clearOn_eq (s : State) (o : Option HeadNum) (u : SlotUse) :
    s.clearOn o u = { s with plans := (s.clearOn o u).plans, headTx := (s.clearOn o u).headTx } := by
  cases o with
  | none => rfl
  | some h => apply State.ext <;> simp [State.clearOn, State.onHead]

theorem State.clearOn_inService (s : State) (o : Option HeadNum) (u : SlotUse) (m : HeadNum) :
    (s.clearOn o u).inService m = s.inService m := by
  rw [State.clearOn_eq]; rfl

theorem State.clearOn_slot (s : State) (o : Option HeadNum) (u : SlotUse) (m : HeadNum) (i : SlotNum) :
    ((s.clearOn o u).plan m)[i] = if o = some m ∧ (s.plan m)[i] = u then .free else (s.plan m)[i] := by
  cases o with
  | none => simp [State.clearOn, State.onHead]
  | some h =>
    show ((s.setSlots h ((s.plan h).slotsWith u) .free).plan m)[i] = _
    rw [State.setSlots_slot]
    by_cases e : m = h
    · subst e; simp [Plan.mem_slotsWith]
    · simp [e, Ne.symm e]

theorem State.clearOn_headTx (s : State) (o : Option HeadNum) (u : SlotUse) (m : HeadNum) :
    (s.clearOn o u).headTx[m] = s.headTx[m] ++
      if s.inService m = true ∧ o = some m then planMessages ((s.plan m).slotsWith u) .free else [] := by
  cases o with
  | none => simp [State.clearOn, State.onHead]
  | some h =>
    show (s.setSlots h ((s.plan h).slotsWith u) .free).headTx[m] = _
    rw [State.setSlots_headTx]
    by_cases hs : s.inService h = true
    · by_cases e : h = m
      · subst e; simp [hs, planMessages, State.planEntry]
      · have e' : (h : Nat) ≠ m := fun x => e (Fin.ext x)
        simp [hs, e, e']
    · by_cases e : h = m
      · subst e; simp [hs]
      · simp [hs, e]

/-- Freeing the active slots of a context leaves its pending ones. -/
theorem State.clearOn_active_pending (s : State) (o : Option HeadNum) (n : CtxNum) (m : HeadNum) :
    ((s.clearOn o (.active n)).plan m).slotsWith (.pending n) = (s.plan m).slotsWith (.pending n) := by
  refine List.filter_congr fun i _ => ?_
  rw [State.clearOn_slot]
  split
  · next h => simp [h.2]
  · rfl

/-- R18: the slots of a context, active on its serving head and pending on its target, are freed where it is a CRANE. -/
def State.clearSlots (s : State) (n : CtxNum) : State :=
  s.forCrane n fun s' => (s'.clearOn (s.ctx n).serving (.active n)).clearOn (s.ctx n).target (.pending n)

theorem State.clearSlots_eq (s : State) (n : CtxNum) :
    s.clearSlots n = { s with plans := (s.clearSlots n).plans, headTx := (s.clearSlots n).headTx } := by
  have first := s.clearOn_eq (s.ctx n).serving (.active n)
  have second := (s.clearOn (s.ctx n).serving (.active n)).clearOn_eq (s.ctx n).target (.pending n)
  unfold State.clearSlots State.forCrane
  split
  · dsimp only
    generalize (s.clearOn (s.ctx n).serving (.active n)).clearOn (s.ctx n).target (.pending n) = t at second ⊢
    rw [first] at second
    exact second
  · rfl

theorem State.clearSlots_slot (s : State) (n : CtxNum) (m : HeadNum) (i : SlotNum) :
    ((s.clearSlots n).plan m)[i] =
      if (s.ctx n).cls = some .crane ∧ ((s.ctx n).serving = some m ∧ (s.plan m)[i] = .active n ∨
        (s.ctx n).target = some m ∧ (s.plan m)[i] = .pending n) then .free else (s.plan m)[i] := by
  unfold State.clearSlots State.forCrane
  split
  · next crane =>
    rw [State.clearOn_slot, State.clearOn_slot]
    by_cases own : (s.ctx n).serving = some m ∧ (s.plan m)[i] = .active n
    · simp [own, crane]
    · simp only [own, crane, if_false, false_or, true_and]
  · next other => simp [other]

theorem State.clearSlots_headTx (s : State) (n : CtxNum) (m : HeadNum) :
    (s.clearSlots n).headTx[m] = s.headTx[m] ++
      (if (s.ctx n).cls = some .crane ∧ s.inService m = true ∧ (s.ctx n).serving = some m then
        planMessages ((s.plan m).slotsWith (.active n)) .free else []) ++
      (if (s.ctx n).cls = some .crane ∧ s.inService m = true ∧ (s.ctx n).target = some m then
        planMessages ((s.plan m).slotsWith (.pending n)) .free else []) := by
  unfold State.clearSlots State.forCrane
  split
  · next crane =>
    rw [State.clearOn_headTx, State.clearOn_headTx, State.clearOn_active_pending, State.clearOn_inService]
    simp [crane]
  · next other => simp [other]

theorem State.subLoadOn_headRec (s : State) (o : Option HeadNum) (m : HeadNum) :
    (s.onHead o State.subLoad).headRec m =
      { s.headRec m with load := if o = some m then (s.headRec m).load - 1 else (s.headRec m).load } := by
  cases o with
  | none => rfl
  | some h =>
    show (s.subLoad h).headRec m = _
    rw [State.subLoad, State.setHead_headRec]
    by_cases e : h = m
    · subst e; simp
    · simp [e]

theorem State.subLoadOn_eq (s : State) (o : Option HeadNum) :
    s.onHead o State.subLoad = { s with heads := (s.onHead o State.subLoad).heads } := by
  cases o <;> rfl

/-- Everything the quay and the stack give up. -/
theorem State.leaveQuay_eq (s : State) (n : CtxNum) :
    s.leaveQuay n = { s with
      heads := (s.onHead (s.ctx n).serving State.subLoad).heads, plans := (s.clearSlots n).plans
      headTx := (s.clearSlots n).headTx, dueList := s.dueList.filter (· ≠ n) } := by
  have cleared := s.clearSlots_eq n
  show { (s.clearSlots n).onHead (s.ctx n).serving State.subLoad with
    dueList := ((s.clearSlots n).onHead (s.ctx n).serving State.subLoad).dueList.filter (· ≠ n) } = _
  rw [State.subLoadOn_eq (s.clearSlots n)]
  have heads : ((s.clearSlots n).onHead (s.ctx n).serving State.subLoad).heads =
      (s.onHead (s.ctx n).serving State.subLoad).heads := by
    rw [cleared]; cases (s.ctx n).serving <;> rfl
  rw [heads, cleared]

theorem State.leaveQuay_chan (s : State) (n : CtxNum) (p : ChanNum) : (s.leaveQuay n).chan p = s.chan p := by
  rw [State.leaveQuay_eq]; rfl

theorem State.leaveQuay_headRec (s : State) (n : CtxNum) (m : HeadNum) :
    (s.leaveQuay n).headRec m = (s.onHead (s.ctx n).serving State.subLoad).headRec m := by
  rw [State.leaveQuay_eq]; rfl

theorem State.leaveQuay_plan (s : State) (n : CtxNum) (m : HeadNum) :
    (s.leaveQuay n).plan m = (s.clearSlots n).plan m := by
  rw [State.leaveQuay_eq]; rfl

theorem State.leaveQuay_headTx (s : State) (n : CtxNum) : (s.leaveQuay n).headTx = (s.clearSlots n).headTx := by
  rw [State.leaveQuay_eq]

/-! ## The whole retirement -/

theorem State.freeRecord_chan (s : State) (n : CtxNum) (p : ChanNum) : (s.freeRecord n).chan p = s.chan p := rfl
theorem State.freeRecord_headRec (s : State) (n : CtxNum) (m : HeadNum) : (s.freeRecord n).headRec m = s.headRec m := rfl
theorem State.freeRecord_plan (s : State) (n : CtxNum) (m : HeadNum) : (s.freeRecord n).plan m = s.plan m := rfl
theorem State.freeRecord_headTx (s : State) (n : CtxNum) : (s.freeRecord n).headTx = s.headTx := rfl

theorem State.freeRecord_eq {s : State} {n : CtxNum} {c : Context} (hc : s.ctx n = c) :
    s.freeRecord n = { s with
      contexts := s.contexts.set n (Context.freeIn (c.gen + 1))
      idMap := match c.identity with
        | some id => eraseId s.idMap id
        | none => s.idMap
      craneCount := if c.cls = some .crane then s.craneCount - 1 else s.craneCount
      freeList := s.freeList ++ [n] } := by
  subst hc; rfl

/-- R17 to R19: what an accepted RETIRE does before its answer. -/
def State.retired (s : State) (n : CtxNum) (ch : ChanNum) : State := ((s.letGo n ch).leaveQuay n).freeRecord n

/-- Everything a retirement does, but for the channels, the heads, the plans and the queues of the heads. -/
theorem State.retired_eq (s : State) (n : CtxNum) (ch : ChanNum) :
    s.retired n ch = { s with
      contexts := s.contexts.set n (Context.freeIn ((s.ctx n).gen + 1))
      idMap := match (s.ctx n).identity with
        | some id => eraseId s.idMap id
        | none => s.idMap
      craneCount := if (s.ctx n).cls = some .crane then s.craneCount - 1 else s.craneCount
      freeList := s.freeList ++ [n], dueList := s.dueList.filter (· ≠ n), waits := s.waits.set n []
      controlTx := s.controlTx ++ (s.wait n).map fun p => ⟨p, fetchCode, .gone⟩
      channels := (s.retired n ch).channels, heads := (s.retired n ch).heads, plans := (s.retired n ch).plans
      headTx := (s.retired n ch).headTx } := by
  obtain ⟨x, go⟩ := s.letGo_eq n ch
  have left := (s.letGo n ch).leaveQuay_eq n
  unfold State.retired
  generalize (s.letGo n ch).channels = v at go
  generalize ((s.letGo n ch).onHead ((s.letGo n ch).ctx n).serving State.subLoad).heads = heads at left
  generalize ((s.letGo n ch).clearSlots n).plans = plans at left
  generalize ((s.letGo n ch).clearSlots n).headTx = headTx at left
  generalize (s.letGo n ch).leaveQuay n = q at left ⊢
  rw [go] at left
  have ctx : q.ctx n = { s.ctx n with holder := x } := by
    rw [left, State.ctx]; simp
  rw [State.freeRecord_eq ctx, left]
  apply State.ext
  case contexts => exact Vector.set_set (hi := n.isLt) ..
  all_goals rfl

theorem State.letGo_ctx (s : State) (n : CtxNum) (ch : ChanNum) :
    ∃ x, (s.letGo n ch).ctx n = { s.ctx n with holder := x } := by
  obtain ⟨x, go⟩ := s.letGo_eq n ch
  exact ⟨x, by rw [State.ctx, go]; simp⟩

theorem State.retired_chan (s : State) (n : CtxNum) (ch p : ChanNum) :
    (s.retired n ch).chan p = (s.letGo n ch).chan p := by
  rw [State.retired, State.freeRecord_chan, State.leaveQuay_chan]

theorem State.retired_headRec (s : State) (n : CtxNum) (ch : ChanNum) (m : HeadNum) :
    (s.retired n ch).headRec m =
      { s.headRec m with
        load := if (s.ctx n).serving = some m then (s.headRec m).load - 1 else (s.headRec m).load } := by
  obtain ⟨x, ctx⟩ := s.letGo_ctx n ch
  obtain ⟨y, go⟩ := s.letGo_eq n ch
  have same : (s.letGo n ch).headRec m = s.headRec m := by rw [State.headRec, go]; rfl
  rw [State.retired, State.freeRecord_headRec, State.leaveQuay_headRec, State.subLoadOn_headRec, ctx, same]

theorem State.retired_slot (s : State) (n : CtxNum) (ch : ChanNum) (m : HeadNum) (i : SlotNum) :
    ((s.retired n ch).plan m)[i] =
      if (s.ctx n).cls = some .crane ∧ ((s.ctx n).serving = some m ∧ (s.plan m)[i] = .active n ∨
        (s.ctx n).target = some m ∧ (s.plan m)[i] = .pending n) then .free else (s.plan m)[i] := by
  obtain ⟨x, ctx⟩ := s.letGo_ctx n ch
  obtain ⟨y, go⟩ := s.letGo_eq n ch
  have same : (s.letGo n ch).plan m = s.plan m := by rw [State.plan, go]; rfl
  rw [State.retired, State.freeRecord_plan, State.leaveQuay_plan, State.clearSlots_slot, ctx, same]

theorem State.retired_headTx (s : State) (n : CtxNum) (ch : ChanNum) (m : HeadNum) :
    (s.retired n ch).headTx[m] = s.headTx[m] ++
      (if (s.ctx n).cls = some .crane ∧ s.inService m = true ∧ (s.ctx n).serving = some m then
        planMessages ((s.plan m).slotsWith (.active n)) .free else []) ++
      (if (s.ctx n).cls = some .crane ∧ s.inService m = true ∧ (s.ctx n).target = some m then
        planMessages ((s.plan m).slotsWith (.pending n)) .free else []) := by
  obtain ⟨x, ctx⟩ := s.letGo_ctx n ch
  obtain ⟨y, go⟩ := s.letGo_eq n ch
  have samePlan : (s.letGo n ch).plan m = s.plan m := by rw [State.plan, go]; rfl
  have sameQueue : (s.letGo n ch).headTx = s.headTx := by rw [go]
  have sameService : (s.letGo n ch).inService m = s.inService m := by rw [State.inService, State.headRec, go]; rfl
  simp only [State.retired, State.freeRecord_headTx, State.leaveQuay_headTx, State.clearSlots_headTx, ctx, samePlan, sameQueue,
    sameService]

/-- Settles O11: what the channels, the Context Store and the quay each give up, and the answer DONE after it. -/
theorem retirementFreesTheContext : Obligations.RetirementFreesTheContext := by
  intro ch w s ready
  have refused {r : Reply} (h : (s.setChanState ch .busy).retirement ch w = (s.setChanState ch .busy).finish ch retireCode r) :
      exec (.retire ch (.fields w)) s = .next (s.answer ch 0x02 r) := by
    rw [exec_retire ready, h, State.busy_finish ready.2]; rfl
  refine ⟨fun high => refused ?_, fun n hn => ⟨fun unused => refused ?_, fun used ⟨other, holds, foreign⟩ => refused ?_,
    fun used own => ?_⟩⟩
  · simp [State.retirement, ctxOf_eq_none high]
  · simp [State.retirement, hn, unused]
  · simp [State.retirement, hn, used, holds, foreign]
  have allowed : ¬ ((s.ctx n).holder ≠ none ∧ (s.ctx n).holder ≠ some ch) := by
    rcases own with own | own <;> simp [own]
  have taken : (s.setChanState ch .busy).retirement ch w =
      ((s.setChanState ch .busy).retired n ch).finish ch retireCode .done := by
    simp [State.retirement, hn, used, allowed, State.retired, State.letGo]
  have whole := (s.setChanState ch .busy).retired_eq n ch
  have chans := (s.setChanState ch .busy).retired_chan n ch
  have headRecs := (s.setChanState ch .busy).retired_headRec n ch
  have slots := (s.setChanState ch .busy).retired_slot n ch
  have queues := (s.setChanState ch .busy).retired_headTx n ch
  intro c crane
  rw [exec_retire ready, taken]
  generalize (s.setChanState ch .busy).retired n ch = t at whole chans headRecs slots queues ⊢
  refine ⟨_, rfl, ?_, fun p => ?_, fun m => ⟨headRecs m, fun i => slots m i, queues m⟩⟩
  · rw [whole]
    rfl
  · have finished : (t.finish ch retireCode .done).chan p =
        if ch = p then { t.chan ch with state := .idle } else t.chan p := State.setChanState_chan ..
    rw [finished, chans, chans]
    exact State.letGo_idle_chan ready.2 n p

end Sys2Proof.Machine
end

section
/-! The measurement list after a contact (R76, R85 to R91): which entry gives way, and where the new one stands. -/

namespace Sys2Proof.Machine

open Sys2Proof

/-- The victim is an entry of the list (R90). -/
theorem mem_of_victim {now : Time} {serving target : Option HeadNum} {l : List Entry} {v : Entry}
    (h : victim now serving target l = some v) : v ∈ l := by
  unfold victim at h
  dsimp only at h
  split at h
  · exact (List.mem_filter.1 (mem_of_firstBy h)).1
  · exact (List.mem_filter.1 (List.mem_filter.1 (mem_of_firstBy h)).1).1

/-- In a list whose heads rise an entry is known by its head. -/
theorem eq_of_head_eq {l : List Entry} (rising : l.Pairwise fun y z => y.head < z.head) {y z : Entry} (hy : y ∈ l)
    (hz : z ∈ l) (same : y.head = z.head) : y = z := by
  induction l with
  | nil => cases hy
  | cons x l ih =>
    obtain ⟨first, rest⟩ := List.pairwise_cons.1 rising
    rcases List.mem_cons.1 hy with rfl | inRest <;> rcases List.mem_cons.1 hz with rfl | inRest'
    · rfl
    · exact absurd same (Fin.ne_of_lt (first z inRest'))
    · exact absurd same.symm (Fin.ne_of_lt (first y inRest))
    · exact ih rest inRest inRest'

theorem makeRoom_sublist (now : Time) (serving target : Option HeadNum) (l : List Entry) :
    (makeRoom now serving target l).Sublist l := by
  unfold makeRoom
  split
  · exact .refl _
  · split
    · exact List.filter_sublist
    · exact .refl _

/-- R90: the entries that stay are all but the victim of a full list. -/
theorem mem_makeRoom {l : List Entry} (rising : l.Pairwise fun y z => y.head < z.head) (now : Time)
    (serving target : Option HeadNum) (e : Entry) :
    e ∈ makeRoom now serving target l ↔ e ∈ l ∧ (l.length < 4 ∨ victim now serving target l ≠ some e) := by
  unfold makeRoom
  split
  · next short => exact ⟨fun he => ⟨he, .inl short⟩, And.left⟩
  · next full =>
    have notShort : ¬ l.length < 4 := full
    cases hv : victim now serving target l with
    | none => simp
    | some v =>
      have listed := mem_of_victim hv
      simp only [List.mem_filter, decide_eq_true_eq, notShort, false_or, ne_eq, Option.some.injEq]
      refine and_congr_right fun he => not_congr ⟨fun same => ?_, fun same => same ▸ rfl⟩
      exact eq_of_head_eq rising listed he same.symm

/-- R86: an entry of a new head leaves the list in ascending order of heads. -/
theorem pairwise_insertEntry {e : Entry} {l : List Entry} (fresh : ∀ y ∈ l, y.head ≠ e.head)
    (rising : l.Pairwise fun y z => y.head < z.head) : (insertEntry e l).Pairwise fun y z => y.head < z.head := by
  induction l with
  | nil => exact List.pairwise_singleton _ e
  | cons x l ih =>
    obtain ⟨first, rest⟩ := List.pairwise_cons.1 rising
    unfold insertEntry
    split
    · next below =>
      refine List.pairwise_cons.2 ⟨fun y hy => ?_, rising⟩
      rcases List.mem_cons.1 hy with rfl | hy
      · exact below
      · exact Fin.lt_trans below (first y hy)
    · next notBelow =>
      refine List.pairwise_cons.2 ⟨fun y hy => ?_, ih (fun y hy => fresh y (List.mem_cons_of_mem x hy)) rest⟩
      rcases (mem_insertEntry e y l).1 hy with rfl | hy
      · have differ := fresh x (List.mem_cons_self ..)
        exact Nat.lt_of_le_of_ne (Nat.not_lt.1 notBelow) fun same => differ (Fin.ext same)
      · exact first y hy

theorem updateList_known {l : List Entry} {a : HeadNum} (known : ∃ e ∈ l, e.head = a) (now : Time) (lifetime w : Nat)
    (serving target : Option HeadNum) (m : Int) :
    updateList now lifetime w serving target a m l =
      l.map fun e => if e.head = a then e.update m w now lifetime else e :=
  if_pos (List.any_eq_true.2 (by simpa using known))

theorem updateList_new {l : List Entry} {a : HeadNum} (new : ∀ e ∈ l, e.head ≠ a) (now : Time) (lifetime w : Nat)
    (serving target : Option HeadNum) (m : Int) :
    updateList now lifetime w serving target a m l =
      insertEntry (Entry.create a m now lifetime) (makeRoom now serving target l) :=
  if_neg (by simpa using new)

theorem State.qualityUpdate_eq {s : State} {a : HeadNum} {floor : Nat} (hfloor : (s.headRec a).floor = some floor)
    (n : CtxNum) (x : Byte) :
    s.qualityUpdate a n x = { s with contexts := s.contexts.set n { s.ctx n with
      entries := updateList s.clock s.params.entryLifetime (s.params.weight.of (s.ctx n).cls) (s.ctx n).serving
        (s.ctx n).target a (margin x.toNat floor) (s.ctx n).entries } } := by
  simp only [State.qualityUpdate, hfloor]
  rfl

/-- Settles O35: the list of the quality update, by whether the head has an entry. -/
theorem qualityUpdateWritesTheEntry : Obligations.QualityUpdateWritesTheEntry := by
  intro a n x s floor hfloor lawful c m w staleAt
  obtain ⟨-, rising, -⟩ := lawful
  refine ⟨_, State.qualityUpdate_eq hfloor n x, fun known => ?_, fun new => ?_⟩
  · rw [updateList_known known]
    rfl
  · rw [updateList_new new]
    have kept := makeRoom_sublist s.clock c.serving c.target c.entries
    refine ⟨pairwise_insertEntry (fun y hy => new y (kept.subset hy)) (rising.sublist kept), fun e => ?_⟩
    rw [mem_insertEntry, mem_makeRoom rising]
    rfl

end Sys2Proof.Machine
end

section
/-! What each stage of a contact does, one lemma for each function of the Contact Unit (R66 to R79), and the order of the
stages. -/

namespace Sys2Proof.Machine

open Sys2Proof

/-! ## Stage 3 (R70 to R74) -/

theorem State.hasRoom_iff (s : State) (a : HeadNum) (n : CtxNum) :
    s.hasRoom a n = true ↔ (s.headRec a).load < (s.headRec a).capacity ∧
      ((s.ctx n).cls = some .crane → (s.ctx n).slotNeed ≤ s.freeCount a) := by
  simp [State.hasRoom, Decidable.imp_iff_not_or]

theorem State.giveVerdict_active {s : State} {n : CtxNum} (state : (s.ctx n).state = .active) (a : HeadNum) :
    s.giveVerdict a n =
      if (s.ctx n).serving = some a then (s, .accept, some a) else (s, .redirect, (s.ctx n).serving) := by
  simp only [State.giveVerdict, state]

theorem State.giveVerdict_moving {s : State} {n : CtxNum} (state : (s.ctx n).state = .moving) (a : HeadNum) :
    s.giveVerdict a n =
      if (s.ctx n).target = some a then (s.confirm n a, .confirm, some a)
      else if (s.ctx n).serving = some a then (s, .accept, some a) else (s, .redirect, (s.ctx n).target) := by
  simp only [State.giveVerdict, state]

theorem State.giveVerdict_silent {s : State} {n : CtxNum} {h : HeadNum} (state : (s.ctx n).state = .silent)
    (serving : (s.ctx n).serving = some h) (a : HeadNum) :
    s.giveVerdict a n = (s.returnFromSilence n, if h = a then .accept else .redirect, some h) := by
  simp only [State.giveVerdict, state, serving]

/-- R73, R74: a context that no head serves is judged for a re-home. -/
theorem State.giveVerdict_homeless {s : State} {n : CtxNum}
    (homeless : (s.ctx n).state = .orphan ∨ (s.ctx n).state = .silent ∧ (s.ctx n).serving = none) (a : HeadNum) :
    s.giveVerdict a n = if s.hasRoom a n then (s.rehome a n, .accept, some a) else (s, .full, none) := by
  rcases homeless with state | ⟨state, serving⟩
  · simp only [State.giveVerdict, state, State.judgeRehome]
  · simp only [State.giveVerdict, state, serving, State.judgeRehome]

/-- Settles O32: one row of the table after another, by the state of the context. -/
theorem verdictsFollowTheState : Obligations.VerdictsFollowTheState := by
  intro a n s c room homeless
  refine ⟨fun active serves => ?_, fun active other => ?_, fun moving isTarget => ?_, fun moving notTarget serves => ?_,
    fun moving notTarget other => ?_, fun silent serves => ?_, fun h silent serves other => ?_,
    fun lost fits => ?_, fun lost full => ?_⟩
  · rw [State.giveVerdict_active active, if_pos serves]
  · rw [State.giveVerdict_active active, if_neg other]
  · rw [State.giveVerdict_moving moving, if_pos isTarget]
  · rw [State.giveVerdict_moving moving, if_neg notTarget, if_pos serves]
  · rw [State.giveVerdict_moving moving, if_neg notTarget, if_neg other]
  · rw [State.giveVerdict_silent silent serves, if_pos rfl]
  · rw [State.giveVerdict_silent silent serves, if_neg other]
  · rw [State.giveVerdict_homeless lost, if_pos ((s.hasRoom_iff a n).2 fits)]
  · rw [State.giveVerdict_homeless lost, if_neg fun fits => full ((s.hasRoom_iff a n).1 fits)]

/-! ## The stages leave the links as they are -/

@[simp] theorem State.subLoad_inService (s : State) (h m : HeadNum) : (s.subLoad h).inService m = s.inService m := by
  rw [State.inService, State.inService, State.subLoad, State.setHead_headRec]
  split
  · next e => rw [e]
  · rfl

theorem State.onHead_inService {f : State → HeadNum → State} {m : HeadNum}
    (hf : ∀ s h, (f s h).inService m = s.inService m) (s : State) (h : Option HeadNum) :
    (s.onHead h f).inService m = s.inService m := by
  cases h with
  | none => rfl
  | some h => exact hf s h

theorem State.forCrane_inService {f : State → State} {m : HeadNum} (hf : ∀ s, (f s).inService m = s.inService m)
    (s : State) (n : CtxNum) : (s.forCrane n f).inService m = s.inService m := by
  unfold State.forCrane
  split
  · exact hf s
  · rfl

@[simp] theorem State.reserveActive_inService (s : State) (h : HeadNum) (n : CtxNum) (k : Nat) (m : HeadNum) :
    (s.reserveActive h n k).inService m = s.inService m := State.setSlots_inService ..

@[simp] theorem State.reservePending_inService (s : State) (h : HeadNum) (n : CtxNum) (k : Nat) (m : HeadNum) :
    (s.reservePending h n k).inService m = s.inService m := State.setSlots_inService ..

@[simp] theorem State.freeActive_inService (s : State) (h : HeadNum) (n : CtxNum) (m : HeadNum) :
    (s.freeActive h n).inService m = s.inService m := State.setSlots_inService ..

@[simp] theorem State.activatePending_inService (s : State) (h : HeadNum) (n : CtxNum) (m : HeadNum) :
    (s.activatePending h n).inService m = s.inService m := State.setSlots_inService ..

@[simp] theorem State.confirm_inService (s : State) (n : CtxNum) (a m : HeadNum) :
    (s.confirm n a).inService m = s.inService m := by
  unfold State.confirm
  dsimp only
  rw [State.setCtx_inService, State.addLoad_inService, State.onHead_inService fun s h => s.subLoad_inService h m]
  refine State.forCrane_inService (fun s => ?_) s n
  rw [State.activatePending_inService, State.onHead_inService fun s h => s.freeActive_inService h n m]

@[simp] theorem State.enterActive_inService (s : State) (n : CtxNum) (m : HeadNum) :
    (s.enterActive n).inService m = s.inService m := by
  unfold State.enterActive
  dsimp only
  split
  · rfl
  · split
    · exact State.setDue_inService ..
    · rfl
  · rfl
  · rfl

@[simp] theorem State.returnFromSilence_inService (s : State) (n : CtxNum) (m : HeadNum) :
    (s.returnFromSilence n).inService m = s.inService m := State.enterActive_inService ..

@[simp] theorem State.rehome_inService (s : State) (a : HeadNum) (n : CtxNum) (m : HeadNum) :
    (s.rehome a n).inService m = s.inService m := by
  unfold State.rehome
  dsimp only
  rw [State.enterActive_inService, State.forCrane_inService fun s => s.reserveActive_inService a n _ m,
    State.setCtx_inService, State.addLoad_inService]

@[simp] theorem State.giveVerdict_inService (s : State) (a : HeadNum) (n : CtxNum) (m : HeadNum) :
    (s.giveVerdict a n).1.inService m = s.inService m := by
  have judged : (s.judgeRehome a n).1.inService m = s.inService m := by
    unfold State.judgeRehome
    split
    · exact State.rehome_inService ..
    · rfl
  unfold State.giveVerdict
  dsimp only
  split
  · rfl
  · split <;> rfl
  · split
    · exact State.confirm_inService ..
    · split <;> rfl
  · exact judged
  · split
    · exact State.returnFromSilence_inService ..
    · exact judged

@[simp] theorem State.qualityUpdate_inService (s : State) (a : HeadNum) (n : CtxNum) (x : Byte) (m : HeadNum) :
    (s.qualityUpdate a n x).inService m = s.inService m := by
  unfold State.qualityUpdate
  split <;> rfl

@[simp] theorem State.capturePosition_inService (s : State) (n : CtxNum) (p : Option Half) (m : HeadNum) :
    (s.capturePosition n p).inService m = s.inService m := by
  unfold State.capturePosition
  split <;> rfl

@[simp] theorem State.intake_inService (s : State) (n : CtxNum) (q : ReportPayload) (m : HeadNum) :
    (s.intake n q).inService m = s.inService m := by
  unfold State.intake
  split
  · rfl
  · split
    · rfl
    · dsimp only
      split <;> split <;> rfl

@[simp] theorem State.restartLoss_inService (s : State) (n : CtxNum) (m : HeadNum) :
    (s.restartLoss n).inService m = s.inService m := by
  unfold State.restartLoss
  dsimp only
  split <;> rfl

@[simp] theorem State.startHandover_inService (s : State) (n : CtxNum) (h target m : HeadNum) :
    (s.startHandover n h target).inService m = s.inService m := by
  unfold State.startHandover
  dsimp only
  rw [State.sendHead_inService, State.forCrane_inService fun s => s.reservePending_inService target n _ m,
    State.setCtx_inService]

@[simp] theorem State.evaluate_inService (s : State) (n : CtxNum) (m : HeadNum) :
    (s.evaluate n).inService m = s.inService m := by
  unfold State.evaluate
  dsimp only
  split
  · split
    · rfl
    · split
      · exact State.startHandover_inService ..
      · rfl
  · rfl

@[simp] theorem State.evaluateAt_inService (s : State) (a : HeadNum) (n : CtxNum) (m : HeadNum) :
    (s.evaluateAt a n).inService m = s.inService m := by
  rcases s.evaluateAt_eq a n with h | h <;> rw [h, State.evaluate_inService]
  rfl

@[simp] theorem State.laterStages_inService (s : State) (a : HeadNum) (n : CtxNum) (x : Byte) (p : Option Half)
    (q : Option ReportPayload) (m : HeadNum) : (s.laterStages a n x p q).inService m = s.inService m := by
  cases q <;> simp [State.laterStages]

/-! ## The order of the stages (R66, R67) -/

/-- R46: a message for a head in service is appended on its link. -/
theorem State.sendHead_eq {s : State} {h : HeadNum} (inService : s.inService h = true) (x : HeadMsg) :
    s.sendHead h x = { s with headTx := queueOn s.headTx h [x] } := by
  have link : (s.headRec h).link = .inService := of_decide_eq_true inService
  simp [State.sendHead, link, HeadMsg.allowedIn_inService, queueOn]

theorem State.contact_stale {s : State} {tag : Half} (unresolved : s.resolve tag = none) (a : HeadNum) (x : Byte)
    (p : Option Half) (q : Option ReportPayload) :
    s.contact a tag x p q = (s.hearing a).sendHead a (.answer tag .stale none) := by
  simp only [State.contact, takeFrame_eq, hearing_resolve, unresolved]

theorem State.contact_deferred {s : State} {a : HeadNum} {tag : Half} (resolved : s.resolve tag ≠ none)
    (out : s.inService a = false) (x : Byte) (p : Option Half) (q : Option ReportPayload) :
    s.contact a tag x p q = (s.hearing a).sendHead a (.answer tag .defer none) := by
  obtain ⟨n, hn⟩ := Option.ne_none_iff_exists'.1 resolved
  simp [State.contact, takeFrame_eq, hearing_resolve, hn, hearing_inService, out]

/-- R66, R67: on a head in service a contact that resolves runs its stages, and the ANSWER is sent last. -/
theorem State.contact_answered {s : State} {a : HeadNum} {tag : Half} {n : CtxNum} (resolved : s.resolve tag = some n)
    (inService : s.inService a = true) (x : Byte) (p : Option Half) (q : Option ReportPayload) :
    let judged := (s.hearing a).giveVerdict a n
    let w := judged.1.laterStages a n x p q
    s.contact a tag x p q = { w with headTx := queueOn w.headTx a [.answer tag judged.2.1 judged.2.2] } := by
  intro judged w
  have serves : w.inService a = true := by
    rw [State.laterStages_inService, State.giveVerdict_inService, hearing_inService, inService]
  rw [← State.sendHead_eq serves]
  simp only [State.contact, takeFrame_eq, hearing_resolve, resolved, hearing_inService, inService, if_true]
  rfl

theorem exec_arrival {s : State} (running : s.resetLow = false) (a : HeadNum) (tag : Half) (x : Byte) (p : Option Half) :
    exec (.arrival a tag x p) s = .next (s.contact a tag x p none) :=
  congrArg Host.Outcome.next (State.whileRunning_high running _)

theorem exec_report {s : State} (running : s.resetLow = false) (a : HeadNum) (tag : Half) (x : Byte) (q : ReportPayload) :
    exec (.report a tag x q) s = .next (s.contact a tag x none (some q)) :=
  congrArg Host.Outcome.next (State.whileRunning_high running _)

/-- An ARRIVAL and a REPORT are one contact to the stages that either may end in. -/
theorem exec_contact {s : State} {i : Instr} {a : HeadNum} {tag : Half} {x : Byte} {p : Option Half} {q : ReportPayload}
    (running : s.resetLow = false) (contact : i = .arrival a tag x p ∨ i = .report a tag x q) :
    ∃ p' q', exec i s = .next (s.contact a tag x p' q') := by
  rcases contact with rfl | rfl
  · exact ⟨_, _, exec_arrival running ..⟩
  · exact ⟨_, _, exec_report running ..⟩

/-- Settles O31: the early ANSWERs by whether the tag resolves and the head is in service, then the stages in their order. -/
theorem contactsRunTheirStages : Obligations.ContactsRunTheirStages := by
  refine ⟨fun a tag x p q s i running contact => ?_, fun a tag x s n running resolved inService => ?_⟩
  · intro t answered
    obtain ⟨p', q', taken⟩ := exec_contact running contact
    have early (v : Verdict) : t.sendHead a (.answer tag v none) = answered v := by
      rw [sendHead_answer, hearing_headTx]
    refine ⟨fun unresolved => ?_, fun resolved out => ?_⟩
    · rw [taken, State.contact_stale unresolved, early]
    · rw [taken, State.contact_deferred resolved out, early]
  · intro judged measured answered
    refine ⟨fun p => ?_, fun q => ?_⟩
    · rw [exec_arrival running, State.contact_answered resolved inService]
      rfl
    · rw [exec_report running, State.contact_answered resolved inService]
      rfl

end Sys2Proof.Machine
end

section
/-! How contexts fall silent: the handover in flight given up (R113), the entry into SILENT (R5), and the loss, orphan and due
deadlines that lead to it (R81, R82, R152, R153). -/

namespace Sys2Proof.Machine

open Sys2Proof

/-! ## Giving up a target (R113) -/

theorem State.forCrane_crane {s : State} {n : CtxNum} (crane : (s.ctx n).cls = some .crane) (f : State → State) :
    s.forCrane n f = f s := if_pos crane

theorem State.forCrane_slotless {s : State} {n : CtxNum} (slotless : (s.ctx n).cls ≠ some .crane) (f : State → State) :
    s.forCrane n f = s := if_neg slotless

/-- R113, R130: everything the freeing of pending slots does on a head in service. -/
theorem State.freePending_eq {s : State} {h : HeadNum} (inService : s.inService h = true) (n : CtxNum) :
    s.freePending h n = { s with
      plans := s.plans.set h ((s.plan h).fill ((s.plan h).slotsWith (.pending n)) .free)
      headTx := queueOn s.headTx h (planMessages ((s.plan h).slotsWith (.pending n)) .free) } :=
  State.setSlots_eq inService _ _

theorem State.giveUpTarget_crane {s : State} {n : CtxNum} {target : HeadNum} (crane : (s.ctx n).cls = some .crane)
    (toward : (s.ctx n).target = some target) (inService : s.inService target = true) :
    s.giveUpTarget n = { s with
      contexts := s.contexts.set n (s.ctx n).withoutTarget
      plans := s.plans.set target ((s.plan target).fill ((s.plan target).slotsWith (.pending n)) .free)
      headTx := queueOn s.headTx target (planMessages ((s.plan target).slotsWith (.pending n)) .free) }.raise
        .handoverFailed (.context n) := by
  have freed : (s.onHead (some target) fun s h => s.freePending h n) = _ := State.freePending_eq inService n
  unfold State.giveUpTarget
  dsimp only
  rw [State.forCrane_crane crane, toward, freed]
  rfl

theorem State.giveUpTarget_slotless {s : State} {n : CtxNum} (slotless : (s.ctx n).cls ≠ some .crane) :
    s.giveUpTarget n =
      { s with contexts := s.contexts.set n (s.ctx n).withoutTarget }.raise .handoverFailed (.context n) := by
  unfold State.giveUpTarget
  dsimp only
  rw [State.forCrane_slotless slotless]
  rfl

theorem Context.withoutTarget_of_none {c : Context} (target : c.target = none) (confirmAt : c.confirmAt = none) :
    c.withoutTarget = c := by
  rw [Context.withoutTarget, ← target, ← confirmAt]

/-! ## Falling silent (R5) -/

/-- The state in which a context has fallen silent, its target given up, and no event is raised yet. -/
def State.silenced (s : State) (n : CtxNum) (cause : SilentCause) : State := { s with
  contexts := s.contexts.set n ((s.ctx n).withoutTarget.silenced cause)
  dueList := s.dueList.filter (· ≠ n) }

/-- A context without a target falls silent as it is. -/
theorem State.fallSilent_eq {s : State} {n : CtxNum} (target : (s.ctx n).target = none)
    (confirmAt : (s.ctx n).confirmAt = none) (cause : SilentCause) :
    s.fallSilent n cause = (s.silenced n cause).raise .contextSilent (.context n) := by
  rw [State.silenced, Context.withoutTarget_of_none target confirmAt]
  rfl

/-- A record that has given up its target, on a state that else keeps what it holds, falls silent. -/
theorem State.fallSilent_of_withoutTarget {s t : State} {n : CtxNum}
    (contexts : t.contexts = s.contexts.set n (s.ctx n).withoutTarget) (dueList : t.dueList = s.dueList)
    (cause : SilentCause) :
    t.fallSilent n cause =
      { t with contexts := (s.silenced n cause).contexts, dueList := (s.silenced n cause).dueList }.raise
        .contextSilent (.context n) := by
  have record : t.ctx n = (s.ctx n).withoutTarget := by rw [State.ctx, contexts]; simp
  have written : t.contexts.set n ((t.ctx n).silenced cause) = (s.silenced n cause).contexts := by
    rw [record, contexts]; exact Vector.set_set ..
  show { t with contexts := t.contexts.set n ((t.ctx n).silenced cause), dueList := t.dueList.filter (· ≠ n) }.raise _ _ = _
  rw [written, dueList]
  rfl

theorem State.abandonAndFallSilent_active {s : State} {n : CtxNum} (active : (s.ctx n).state = .active)
    (target : (s.ctx n).target = none) (confirmAt : (s.ctx n).confirmAt = none) (cause : SilentCause) :
    s.abandonAndFallSilent n cause = (s.silenced n cause).raise .contextSilent (.context n) := by
  simp only [State.abandonAndFallSilent, active, State.fallSilent_eq target confirmAt]

/-- R81, R113: a MOVING crane frees its pending slots, gives up its target and falls silent. -/
theorem State.abandonAndFallSilent_crane {s : State} {n : CtxNum} {target : HeadNum} (moving : (s.ctx n).state = .moving)
    (crane : (s.ctx n).cls = some .crane) (toward : (s.ctx n).target = some target)
    (inService : s.inService target = true) (cause : SilentCause) :
    s.abandonAndFallSilent n cause =
      ({ s.silenced n cause with
        plans := s.plans.set target ((s.plan target).fill ((s.plan target).slotsWith (.pending n)) .free)
        headTx := queueOn s.headTx target (planMessages ((s.plan target).slotsWith (.pending n)) .free) }.raise
          .handoverFailed (.context n)).raise .contextSilent (.context n) := by
  have given := State.giveUpTarget_crane crane toward inService
  have silent := State.fallSilent_of_withoutTarget (t := s.giveUpTarget n) (by rw [given]; rfl) (by rw [given]; rfl) cause
  simp only [State.abandonAndFallSilent, moving]
  rw [silent, given]
  rfl

/-- R153, R113: a MOVING context that reserves no slots gives up its target and falls silent. -/
theorem State.abandonAndFallSilent_slotless {s : State} {n : CtxNum} (moving : (s.ctx n).state = .moving)
    (slotless : (s.ctx n).cls ≠ some .crane) (cause : SilentCause) :
    s.abandonAndFallSilent n cause =
      ((s.silenced n cause).raise .handoverFailed (.context n)).raise .contextSilent (.context n) := by
  have given := State.giveUpTarget_slotless slotless
  have silent := State.fallSilent_of_withoutTarget (t := s.giveUpTarget n) (by rw [given]; rfl) (by rw [given]; rfl) cause
  simp only [State.abandonAndFallSilent, moving]
  rw [silent, given]
  rfl

/-! ## The deadlines (R81, R82, R152, R153) -/

theorem exec_lossDeadline {s : State} (running : s.resetLow = false) (n : CtxNum) :
    exec (.lossDeadline n) s = .next (
      if ((s.ctx n).state = .active ∨ (s.ctx n).state = .moving) ∧ expired s.clock (s.ctx n).lossAt = true then
        s.abandonAndFallSilent n .linkLost
      else s) :=
  congrArg Host.Outcome.next (State.whileRunning_high running _)

theorem exec_orphanDeadline {s : State} (running : s.resetLow = false) (n : CtxNum) :
    exec (.orphanDeadline n) s = .next (
      if (s.ctx n).state = .orphan ∧ expired s.clock (s.ctx n).orphanAt = true then s.fallSilent n .orphaned else s) :=
  congrArg Host.Outcome.next (State.whileRunning_high running _)

theorem exec_dueExpiry {s : State} (running : s.resetLow = false) : exec .dueExpiry s = .next s.dueExpiry :=
  congrArg Host.Outcome.next (State.whileRunning_high running _)

theorem exec_dueExpiry_of_late {s : State} {n : CtxNum} (running : s.resetLow = false) (late : s.lateReefer = some n)
    (listed : (s.ctx n).state = .active ∨ (s.ctx n).state = .moving) :
    exec .dueExpiry s = .next (s.abandonAndFallSilent n .reportMissed) := by
  rw [exec_dueExpiry running]
  simp only [State.dueExpiry, late, listed, if_true]

/-- R152: the late reefer is the head of the due list, its due time and the grace over. -/
theorem State.lateReefer_eq_some_iff (s : State) (n : CtxNum) :
    s.lateReefer = some n ↔
      s.dueList.head? = some n ∧
        ∃ due, (s.ctx n).due = some due ∧ reached s.clock (after due (1000 * s.params.grace)) = true := by
  unfold State.lateReefer
  cases s.dueList with
  | nil => simp
  | cons m l =>
    cases hdue : (s.ctx m).due with
    | none =>
      simp only [hdue, List.head?_cons, Option.some.injEq, reduceCtorEq, false_iff]
      rintro ⟨rfl, due, present, -⟩
      exact Option.some_ne_none due (present.symm.trans hdue)
    | some due =>
      simp only [hdue, List.head?_cons, Option.some.injEq, Option.ite_none_right_eq_some]
      constructor
      · rintro ⟨elapsed, rfl⟩
        exact ⟨rfl, due, hdue, elapsed⟩
      · rintro ⟨rfl, due', present, elapsed⟩
        obtain rfl := Option.some.inj (hdue.symm.trans present)
        exact ⟨elapsed, rfl⟩

/-- Settles O43: each deadline on a context without a target, then the handover in flight, then before the deadline. -/
theorem contextsFallSilent : Obligations.ContextsFallSilent := by
  intro s n running c silent
  refine ⟨fun target confirmAt => ⟨fun active elapsed => ?_, fun orphan elapsed => ?_, fun active late => ?_⟩,
    fun target moving toward inService => ⟨fun crane elapsed => ?_, fun reefer late => ?_⟩,
    fun early => ?_, fun early => ?_, fun none => ?_, s.lateReefer_eq_some_iff n⟩
  · rw [exec_lossDeadline running, if_pos ⟨.inl active, elapsed⟩, State.abandonAndFallSilent_active active target confirmAt]
    rfl
  · rw [exec_orphanDeadline running, if_pos ⟨orphan, elapsed⟩, State.fallSilent_eq target confirmAt]
    rfl
  · rw [exec_dueExpiry_of_late running late (.inl active), State.abandonAndFallSilent_active active target confirmAt]
    rfl
  · rw [exec_lossDeadline running, if_pos ⟨.inr moving, elapsed⟩,
      State.abandonAndFallSilent_crane moving crane toward inService]
    rfl
  · have slotless : c.cls ≠ some .crane := by simp [reefer]
    rw [exec_dueExpiry_of_late running late (.inr moving), State.abandonAndFallSilent_slotless moving slotless]
    rfl
  · rw [exec_lossDeadline running, if_neg]
    rintro ⟨listed, elapsed⟩
    rcases early with ⟨notActive, notMoving⟩ | before
    · exact listed.elim notActive notMoving
    · exact Bool.false_ne_true (before.symm.trans elapsed)
  · rw [exec_orphanDeadline running, if_neg]
    rintro ⟨orphan, elapsed⟩
    rcases early with notOrphan | before
    · exact notOrphan orphan
    · exact Bool.false_ne_true (before.symm.trans elapsed)
  · rw [exec_dueExpiry running]
    simp only [State.dueExpiry, none]

end Sys2Proof.Machine
end

section
/-! A return from silence and a re-home, whole (R72, R73, R75, R132). -/

namespace Sys2Proof.Machine

open Sys2Proof

/-! ## Entry into ACTIVE (R75) -/

/-- R72, R73, R75: the record of a context of class k that has entered ACTIVE, and what belongs to ACTIVE with it. -/
def Context.entered (r : Context) (k : TermClass) (now : Time) (lossWindow : Nat) : Context :=
  { r.dueAt (match k, r.reefer with
      | .reefer, some q => some (after now (1000 * q.period))
      | _, _ => none) with
    state := .active, cause := none, awaitsServing := false
    lossAt := if k = .crane then some (after now lossWindow) else r.lossAt }

theorem Context.started_returned {r : Context} {k : TermClass} (cls : r.cls = some k)
    (part : r.reefer.isSome = true ↔ r.cls = some .reefer) (now : Time) (w : Nat) :
    r.returned.started now w = r.entered k now w := by
  have unlisted (other : k ≠ .reefer) : r.reefer = none := by
    rw [← Option.not_isSome_iff_eq_none, part, cls]
    simpa using other
  cases k with
  | crane =>
    simp [Context.started, Context.returned, Context.entered, Context.dueAt, cls, unlisted]
  | general =>
    simp [Context.started, Context.returned, Context.entered, Context.dueAt, cls, unlisted]
  | reefer =>
    obtain ⟨q, hq⟩ := Option.isSome_iff_exists.1 (part.2 cls)
    simp [Context.started, Context.returned, Context.entered, Context.dueAt, Context.withDue, cls, hq, dueFrom]

/-- The state in which a context of class k has entered ACTIVE with the record r: a REEFER takes its place in the due list. -/
def State.entering (s : State) (n : CtxNum) (k : TermClass) (r : Context) : State :=
  let c := r.entered k s.clock s.params.lossWindow
  if k = .reefer then s.placedInDueList n c else { s with contexts := s.contexts.set n c }

/-- An entry into ACTIVE changes the records and the due list alone, also on a state whose other fields differ from s. -/
theorem State.enterActive_returned {s t : State} {n : CtxNum} {r : Context} {k : TermClass} (cls : r.cls = some k)
    (part : r.reefer.isSome = true ↔ r.cls = some .reefer) (contexts : t.contexts = s.contexts.set n r.returned)
    (dueList : t.dueList = s.dueList) (clock : t.clock = s.clock) (params : t.params = s.params) :
    t.enterActive n =
      { t with contexts := (s.entering n k r).contexts, dueList := (s.entering n k r).dueList } := by
  have record : t.ctx n = r.returned := by rw [State.ctx, contexts]; simp
  have started : (t.ctx n).started t.clock t.params.lossWindow = r.entered k s.clock s.params.lossWindow := by
    rw [record, clock, params, Context.started_returned cls part]
  have ownCls : (t.ctx n).cls = some k := by rw [record]; exact cls
  have written (c : Context) : t.contexts.set n c = s.contexts.set n c := by
    rw [contexts]; exact Vector.set_set ..
  have made := State.enterActive_eq (s := t) (n := n) (by rw [record]; exact part)
  rw [started, ownCls, written, State.placedInDueList_congr (written _) dueList, dueList] at made
  rw [made]
  cases k <;> rfl

theorem State.returnFromSilence_eq {s : State} {n : CtxNum} {k : TermClass} (cls : (s.ctx n).cls = some k)
    (part : (s.ctx n).reefer.isSome = true ↔ (s.ctx n).cls = some .reefer) :
    s.returnFromSilence n = s.entering n k (s.ctx n) := by
  have made := State.enterActive_returned (s := s) (t := s.setCtx n (s.ctx n).returned) cls part rfl rfl rfl rfl
  show (s.setCtx n (s.ctx n).returned).enterActive n = _
  rw [made]
  cases k <;> rfl

/-- The state in which a context has been given to head a and its record re-homed, before its slots and its entry into
ACTIVE. -/
def State.given (s : State) (a : HeadNum) (n : CtxNum) : State := (s.addLoad a).setCtx n ((s.ctx n).rehomed a)

theorem State.rehome_eq_given (s : State) (a : HeadNum) (n : CtxNum) :
    s.rehome a n =
      ((s.given a n).forCrane n fun u => u.reserveActive a n (u.ctx n).slotNeed).enterActive n := rfl

@[simp] theorem State.given_ctx (s : State) (a : HeadNum) (n : CtxNum) : (s.given a n).ctx n = (s.ctx n).rehomed a :=
  State.setCtx_ctx_self ..

@[simp] theorem State.given_tag (s : State) (a : HeadNum) (n : CtxNum) : (s.given a n).tag n = s.tag n := by
  rw [State.tag, State.given_ctx]; rfl

@[simp] theorem State.given_inService (s : State) (a : HeadNum) (n : CtxNum) (m : HeadNum) :
    (s.given a n).inService m = s.inService m := s.addLoad_inService a m

/-- R132: the lowest free slots are reserved for a CRANE that is re-homed. -/
theorem State.given_reserved {s : State} {a : HeadNum} (inService : s.inService a = true) {n : CtxNum}
    (crane : (s.ctx n).cls = some .crane) :
    (s.given a n).forCrane n (fun u => u.reserveActive a n (u.ctx n).slotNeed) = { s.given a n with
      plans := s.plans.set a ((s.plan a).fill (s.lowestFree a (s.ctx n).slotNeed) (.active n))
      headTx := queueOn s.headTx a (planMessages (s.lowestFree a (s.ctx n).slotNeed) (.active (s.tag n))) } := by
  have serves : (s.given a n).inService a = true := by rw [State.given_inService, inService]
  rw [State.forCrane_crane (by rw [State.given_ctx]; exact crane), State.reserveActive_eq serves, State.given_ctx,
    State.given_tag]
  rfl

/-- R73, R132: everything a re-home does on a head in service. -/
theorem State.rehome_eq {s : State} {a : HeadNum} {n : CtxNum} {k : TermClass} (inService : s.inService a = true)
    (cls : (s.ctx n).cls = some k) (part : (s.ctx n).reefer.isSome = true ↔ (s.ctx n).cls = some .reefer) :
    s.rehome a n = { s.entering n k { s.ctx n with serving := some a, orphanAt := none } with
      heads := s.heads.set a { s.headRec a with load := (s.headRec a).load + 1 }
      plans := if k = .crane then
          s.plans.set a ((s.plan a).fill (s.lowestFree a (s.ctx n).slotNeed) (.active n))
        else s.plans
      headTx := if k = .crane then
          queueOn s.headTx a (planMessages (s.lowestFree a (s.ctx n).slotNeed) (.active (s.tag n)))
        else s.headTx } := by
  have entering (t : State) := State.enterActive_returned (s := s) (t := t) (n := n)
    (r := { s.ctx n with serving := some a, orphanAt := none }) cls part
  rw [State.rehome_eq_given]
  by_cases crane : k = .crane
  · subst crane
    have reserved := State.given_reserved inService cls
    generalize (s.given a n).forCrane n (fun u => u.reserveActive a n (u.ctx n).slotNeed) = t at reserved ⊢
    rw [entering t (by rw [reserved]; rfl) (by rw [reserved]; rfl) (by rw [reserved]; rfl) (by rw [reserved]; rfl),
      reserved]
    rfl
  · have slotless : ((s.given a n).ctx n).cls ≠ some .crane := by
      rw [State.given_ctx, show ((s.ctx n).rehomed a).cls = some k from cls]
      simpa using crane
    rw [State.forCrane_slotless slotless, entering (s.given a n) rfl rfl rfl rfl, if_neg crane, if_neg crane]
    cases k <;> rfl

/-- Settles O33: both are one entry into ACTIVE, from the record that stage 3 leaves. -/
theorem contextsEnterActive : Obligations.ContextsEnterActive := by
  intro a n s k parts cls c entered placed
  obtain ⟨-, -, -, part⟩ := parts
  refine ⟨?_, fun inService => ?_⟩
  · rw [State.returnFromSilence_eq cls part]
    rfl
  · rw [State.rehome_eq inService cls part]
    rfl

end Sys2Proof.Machine
end

section
/-! The arithmetic of the quality filter (R88, R89): one update of F, and F under a steady margin. -/

namespace Sys2Proof.Machine

open Sys2Proof

/-! ## A quotient truncated toward zero -/

/-- R89: the truncated quotient of a gap that is not negative is no larger than the gap, and 0 exactly inside the dead band. -/
theorem tdiv_of_rising {g d : Int} (hd : 0 < d) (hg : 0 ≤ g) :
    0 ≤ g.tdiv d ∧ g.tdiv d ≤ g ∧ (g.tdiv d = 0 ↔ g < d) := by
  rw [Int.tdiv_eq_ediv_of_nonneg hg]
  exact ⟨Int.ediv_nonneg hg (Int.le_of_lt hd), Int.ediv_le_self d hg,
    ⟨fun h => by have := Int.lt_ediv_add_one_mul_self g hd; simpa [h] using this, Int.ediv_eq_zero_of_lt hg⟩⟩

/-- R89: a falling gap is treated as the rising one of its size. -/
theorem tdiv_of_falling {g d : Int} (hd : 0 < d) (hg : g ≤ 0) :
    g ≤ g.tdiv d ∧ g.tdiv d ≤ 0 ∧ (g.tdiv d = 0 ↔ -d < g) := by
  obtain ⟨pos, small, still⟩ := tdiv_of_rising hd (Int.neg_nonneg.2 hg)
  rw [Int.neg_tdiv] at pos small still
  omega

/-! ## One update -/

/-- R88: the gap is divided by a number above 0, whatever the weight. -/
theorem weight_pos (w : Nat) : (0 : Int) < 2 ^ w := Int.pow_pos (by decide)

/-- R89: F moves toward 8M and never past it. -/
theorem filterStep_between (f m : Int) (w : Nat) :
    min f (8 * m) ≤ filterStep f m w ∧ filterStep f m w ≤ max f (8 * m) := by
  have hd := weight_pos w
  unfold filterStep
  rcases Int.le_total 0 (8 * m - f) with rising | falling
  · obtain ⟨pos, small, -⟩ := tdiv_of_rising hd rising
    omega
  · obtain ⟨small, neg, -⟩ := tdiv_of_falling hd falling
    omega

/-- R89: F stands still exactly when the gap lies inside the dead band. -/
theorem filterStep_eq_self_iff (f m : Int) (w : Nat) :
    filterStep f m w = f ↔ -(2 ^ w : Int) < 8 * m - f ∧ 8 * m - f < 2 ^ w := by
  have hd := weight_pos w
  unfold filterStep
  rcases Int.le_total 0 (8 * m - f) with rising | falling
  · obtain ⟨-, -, still⟩ := tdiv_of_rising hd rising
    omega
  · obtain ⟨-, -, still⟩ := tdiv_of_falling hd falling
    omega

/-- R89: with weight 0 the whole gap is closed. -/
theorem filterStep_zero (f m : Int) : filterStep f m 0 = 8 * m := by
  show f + (8 * m - f).tdiv 1 = 8 * m
  rw [Int.tdiv_one]
  omega

/-- R89: a rising and a falling gap are treated alike. -/
theorem filterStep_neg (f m : Int) (w : Nat) : filterStep (-f) (-m) w = -filterStep f m w := by
  have gap : 8 * -m - -f = -(8 * m - f) := by omega
  rw [filterStep, filterStep, gap, Int.neg_tdiv]
  omega

/-- R86, R89: an updated F stays in the range of F. -/
theorem filterStep_range {f m : Int} (w : Nat) (lo : -512 ≤ f) (hi : f ≤ 1016) (mlo : -64 ≤ m) (mhi : m ≤ 127) :
    -512 ≤ filterStep f m w ∧ filterStep f m w ≤ 1016 := by
  have between := filterStep_between f m w
  omega

/-- R89: one update of an F outside the dead band brings it at least 1 nearer to 8M; one inside stays there. -/
theorem filterStep_gap (f m : Int) (w : Nat) :
    (filterStep f m w - 8 * m).natAbs ≤ max (2 ^ w - 1) ((f - 8 * m).natAbs - 1) := by
  have between := filterStep_between f m w
  have still := filterStep_eq_self_iff f m w
  have size : ((2 ^ w : Nat) : Int) = 2 ^ w := by norm_cast
  have positive := Nat.two_pow_pos w
  by_cases inside : filterStep f m w = f
  · rw [inside]
    have band := still.1 inside
    omega
  · omega

/-! ## A steady margin -/

/-- F after j updates under a steady margin. -/
def filterRun (f m : Int) (w : Nat) (j : Nat) : Int := Nat.repeat (fun y => filterStep y m w) j f

@[simp] theorem filterRun_zero (f m : Int) (w : Nat) : filterRun f m w 0 = f := rfl

@[simp] theorem filterRun_succ (f m : Int) (w j : Nat) :
    filterRun f m w (j + 1) = filterStep (filterRun f m w j) m w := rfl

/-- R89: F approaches 8M from the side it started on. -/
theorem filterRun_side (f m : Int) (w j : Nat) :
    (8 * m ≤ f → 8 * m ≤ filterRun f m w j) ∧ (f ≤ 8 * m → filterRun f m w j ≤ 8 * m) := by
  induction j with
  | zero => exact ⟨id, id⟩
  | succ j ih =>
    have between := filterStep_between (filterRun f m w j) m w
    rw [filterRun_succ]
    omega

/-- R89: j updates close the gap by j, or bring it inside the dead band. -/
theorem filterRun_gap (f m : Int) (w j : Nat) :
    (filterRun f m w j - 8 * m).natAbs ≤ max (2 ^ w - 1) ((f - 8 * m).natAbs - j) := by
  induction j with
  | zero => exact Nat.le_max_right ..
  | succ j ih =>
    have next := filterStep_gap (filterRun f m w j) m w
    rw [filterRun_succ]
    omega

/-- Settles O37: one update clause by clause, then a run of updates as long as the first gap is large. -/
theorem filterStaysInRange : Obligations.FilterStaysInRange := by
  intro f m w lo hi mlo mhi f'
  refine ⟨filterStep_between f m w, filterStep_range w lo hi mlo mhi, filterStep_eq_self_iff f m w, ?_,
    filterStep_neg f m w, (f - 8 * m).natAbs, fun j enough => ⟨?_, filterRun_side f m w j⟩⟩
  · rintro rfl
    exact filterStep_zero f m
  · have closed := filterRun_gap f m w j
    rwa [Nat.sub_eq_zero_of_le enough, Nat.max_zero] at closed

end Sys2Proof.Machine
end

section
/-! The order of sacrifice in a measurement list (R90, R91): which entry gives way, and that a full list has one. -/

namespace Sys2Proof.Machine

open Sys2Proof

/-! ## The first of a list by an order -/

/-- An order that puts any two entries of different heads one before the other. -/
structure RanksHeads (before : Entry → Entry → Bool) : Prop where
  trans : ∀ x y z, before x y = true → before y z = true → before x z = true
  asymm : ∀ x y, before x y = true → before y x = false
  total : ∀ x y, x.head ≠ y.head → before x y = true ∨ before y x = true

/-- What `firstBy` answers comes before every other entry of the list. -/
theorem before_of_firstBy {before : Entry → Entry → Bool} (ranks : RanksHeads before) {l : List Entry}
    (differ : l.Pairwise fun y z => y.head ≠ z.head) {v : Entry} (h : firstBy before l = some v) :
    ∀ e ∈ l, e ≠ v → before v e = true := by
  induction l generalizing v with
  | nil => simp
  | cons x l ih =>
    obtain ⟨apart, rest⟩ := List.pairwise_cons.1 differ
    unfold firstBy at h
    cases hl : firstBy before l with
    | none =>
      obtain rfl := firstBy_eq_none.1 hl
      obtain rfl : x = v := by simpa [hl] using h
      simp
    | some b =>
      have first := ih rest hl
      simp only [hl] at h
      intro e he other
      split at h
      · next better =>
        obtain rfl := Option.some.inj h
        rcases List.mem_cons.1 he with rfl | he
        · exact better
        · exact first e he other
      · next notBetter =>
        obtain rfl := Option.some.inj h
        have beats : before x b = true :=
          (ranks.total x b (apart b (mem_of_firstBy hl))).resolve_right notBetter
        have inRest := (List.mem_cons.1 he).resolve_left other
        by_cases same : e = b
        · rw [same]; exact beats
        · exact ranks.trans x b e beats (first e inRest same)

/-- In a list of different heads `firstBy` answers the one entry that comes before every other. -/
theorem firstBy_eq_some_iff {before : Entry → Entry → Bool} (ranks : RanksHeads before) {l : List Entry}
    (differ : l.Pairwise fun y z => y.head ≠ z.head) (v : Entry) :
    firstBy before l = some v ↔ v ∈ l ∧ ∀ e ∈ l, e ≠ v → before v e = true := by
  refine ⟨fun h => ⟨mem_of_firstBy h, before_of_firstBy ranks differ h⟩, fun ⟨listed, first⟩ => ?_⟩
  cases hl : firstBy before l with
  | none =>
    obtain rfl := firstBy_eq_none.1 hl
    cases listed
  | some u =>
    by_cases same : u = v
    · rw [same]
    · have uFirst := before_of_firstBy ranks differ hl v listed (Ne.symm same)
      have vFirst := first u (mem_of_firstBy hl) same
      exact absurd vFirst (by simp [ranks.asymm u v uFirst])

/-! ## The two orders of R91 -/

theorem Entry.olderThan_iff (now : Time) (x y : Entry) :
    x.olderThan now y = true ↔ y.age now < x.age now ∨ x.age now = y.age now ∧ y.head < x.head :=
  decide_eq_true_iff

theorem Entry.weakerThan_iff (now : Time) (x y : Entry) :
    x.weakerThan now y = true ↔ x.f < y.f ∨ x.f = y.f ∧ x.olderThan now y = true := by
  simp [Entry.weakerThan]

theorem olderThan_ranks (now : Time) : RanksHeads (Entry.olderThan now) where
  trans x y z := by simp only [Entry.olderThan_iff, Fin.lt_def]; intro h k; omega
  asymm x y := by simp only [← Bool.not_eq_true, Entry.olderThan_iff, Fin.lt_def]; intro h; omega
  total x y := by simp only [Entry.olderThan_iff, Fin.lt_def, ne_eq, Fin.ext_iff]; intro differ; omega

theorem weakerThan_ranks (now : Time) : RanksHeads (Entry.weakerThan now) where
  trans x y z := by simp only [Entry.weakerThan_iff, Entry.olderThan_iff, Fin.lt_def]; intro h k; omega
  asymm x y := by simp only [← Bool.not_eq_true, Entry.weakerThan_iff, Entry.olderThan_iff, Fin.lt_def]; intro h; omega
  total x y := by
    simp only [Entry.weakerThan_iff, Entry.olderThan_iff, Fin.lt_def, ne_eq, Fin.ext_iff]; intro differ; omega

/-! ## The choice -/

theorem mem_openToChoice (serving target : Option HeadNum) (l : List Entry) (e : Entry) :
    e ∈ openToChoice serving target l ↔ e ∈ l ∧ serving ≠ some e.head ∧ target ≠ some e.head := by
  simp [openToChoice, eq_comm (a := some e.head)]

theorem openToChoice_differ {l : List Entry} (differ : l.Pairwise fun y z => y.head ≠ z.head)
    (serving target : Option HeadNum) :
    (openToChoice serving target l).Pairwise fun y z => y.head ≠ z.head := differ.filter _

/-- R91: with no stale entry open to the choice, the weakest gives way; else the oldest stale one. -/
theorem victim_eq (now : Time) (serving target : Option HeadNum) (l : List Entry) :
    victim now serving target l =
      if (openToChoice serving target l).filter (·.stale) = [] then
        firstBy (Entry.weakerThan now) (openToChoice serving target l)
      else firstBy (Entry.olderThan now) ((openToChoice serving target l).filter (·.stale)) := rfl

/-- R90: a role protects at most one entry. -/
theorem length_of_protected {l : List Entry} (differ : l.Pairwise fun y z => y.head ≠ z.head) (role : Option HeadNum) :
    l.length ≤ (l.filter fun e => some e.head ≠ role).length + 1 := by
  induction l with
  | nil => simp
  | cons x l ih =>
    obtain ⟨apart, rest⟩ := List.pairwise_cons.1 differ
    by_cases holds : some x.head = role
    · have others : l.filter (fun e => some e.head ≠ role) = l := by
        rw [List.filter_eq_self]
        intro e he
        simpa [← holds] using (apart e he).symm
      rw [List.filter_cons_of_neg (by simpa using holds), others]
      exact Nat.le_refl _
    · rw [List.filter_cons_of_pos (by simpa using holds)]
      have shorter := ih rest
      simp only [List.length_cons]
      omega

/-- R90: at most two entries are protected. -/
theorem length_openToChoice {l : List Entry} (differ : l.Pairwise fun y z => y.head ≠ z.head)
    (serving target : Option HeadNum) : l.length ≤ (openToChoice serving target l).length + 2 := by
  have twice : openToChoice serving target l =
      (l.filter fun e => some e.head ≠ target).filter fun e => some e.head ≠ serving := by
    simp [openToChoice, List.filter_filter]
  have byTarget := length_of_protected differ target
  have byServing := length_of_protected (differ.filter fun e => some e.head ≠ target) serving
  rw [twice]
  omega

theorem victim_eq_none_iff (now : Time) (serving target : Option HeadNum) (l : List Entry) :
    victim now serving target l = none ↔ openToChoice serving target l = [] := by
  rw [victim_eq]
  split
  · exact firstBy_eq_none
  · next stale =>
    rw [firstBy_eq_none]
    exact ⟨fun h => absurd h stale, fun h => by rw [h, List.filter_nil]⟩

/-- R90: a list of three or more different heads has a victim. -/
theorem exists_victim {l : List Entry} (differ : l.Pairwise fun y z => y.head ≠ z.head) (enough : 3 ≤ l.length)
    (now : Time) (serving target : Option HeadNum) : ∃ v, victim now serving target l = some v := by
  refine Option.ne_none_iff_exists'.1 fun none => ?_
  have few := length_openToChoice differ serving target
  rw [(victim_eq_none_iff ..).1 none, List.length_nil] at few
  omega

/-- Settles O36: by whether a stale entry is open to the choice, the victim is the first by age or the first by F. -/
theorem victimsGiveWayInOrder : Obligations.VictimsGiveWayInOrder := by
  intro now serving target l differ isOpen older
  refine ⟨fun v => ?_, fun enough => exists_victim differ enough now serving target⟩
  have open_iff (e : Entry) : e ∈ openToChoice serving target l ↔ isOpen e := mem_openToChoice serving target l e
  have older_iff (y z : Entry) : y.olderThan now z = true ↔ older y z := Entry.olderThan_iff now y z
  have differOpen := openToChoice_differ differ serving target
  rw [victim_eq]
  split
  · next noStale =>
    have fresh : ∀ e, isOpen e → e.stale = false := by
      simpa [List.filter_eq_nil_iff, open_iff] using noStale
    have none : ¬ ∃ e, isOpen e ∧ e.stale = true := fun ⟨e, he, stale⟩ => by simp [fresh e he] at stale
    rw [firstBy_eq_some_iff (weakerThan_ranks now) differOpen]
    simp only [open_iff, Entry.weakerThan_iff, older_iff, none, false_and, false_or]
    exact and_congr_right fun _ => ⟨fun first => ⟨fresh, first⟩, And.right⟩
  · next someStale =>
    have stale : ∃ e, isOpen e ∧ e.stale = true := by
      simpa [List.filter_eq_nil_iff, open_iff] using someStale
    have notFresh : ¬ ∀ e, isOpen e → e.stale = false := by simpa using stale
    rw [firstBy_eq_some_iff (olderThan_ranks now) (differOpen.filter _)]
    simp only [List.mem_filter, open_iff, older_iff, stale, notFresh, true_and, false_and, or_false, and_assoc, and_imp]

end Sys2Proof.Machine
end

section
/-! Stale marks (R92), the position of a crane (R76) and the restart of the loss deadline (R78, R80). -/

namespace Sys2Proof.Machine

open Sys2Proof

theorem exec_staleDeadline {s : State} (running : s.resetLow = false) (n : CtxNum) (h : HeadNum) :
    exec (.staleDeadline n h) s = .next (s.staleDeadline n h) :=
  congrArg Host.Outcome.next (State.whileRunning_high running _)

/-- Settles O38: the stale deadline, then stage 4 by whether there is a crane part, then stage 6 by class and state. -/
theorem marksPositionsAndLossDeadlines : Obligations.MarksPositionsAndLossDeadlines := by
  intro s n
  refine ⟨fun h running => ?_, ⟨?_, fun p => ⟨fun noPart => ?_, fun part crane => ?_⟩⟩, fun crane runs => ?_, fun exempt => ?_⟩
  · rw [exec_staleDeadline running]
    rfl
  · rfl
  · simp only [State.capturePosition, noPart]
  · simp only [State.capturePosition, crane]
    rfl
  · exact if_pos ⟨crane, runs⟩
  · refine if_neg fun ⟨crane, runs⟩ => ?_
    rcases exempt with other | ⟨notActive, notMoving⟩
    · exact other crane
    · exact runs.elim notActive notMoving

end Sys2Proof.Machine
end

section
/-! Lawful measurement lists (R86, R89): what each change of a list keeps of the law. -/

namespace Sys2Proof.Machine

open Sys2Proof

/-- R86, R89: F and the trigger count in their ranges, and a stale deadline exactly while the entry is fresh. -/
def Entry.Lawful (e : Entry) : Prop :=
  -512 ≤ e.f ∧ e.f ≤ 1016 ∧ e.count ≤ 15 ∧ (e.staleAt.isSome = true ↔ e.stale = false)

/-- The law of a measurement list, of the list alone. -/
def LawfulList (l : List Entry) : Prop :=
  l.length ≤ 4 ∧ l.Pairwise (fun x y => x.head < y.head) ∧ ∀ e ∈ l, e.Lawful

theorem Context.entriesLawful_iff (c : Context) : c.EntriesLawful ↔ LawfulList c.entries := Iff.rfl

/-! ## One entry -/

/-- R85: a margin is −64 to +127. -/
theorem margin_range (sample floor : Nat) : -64 ≤ margin sample floor ∧ margin sample floor ≤ 127 :=
  clampInt_bounds (by decide) _

theorem Entry.create_lawful (h : HeadNum) {m : Int} (lo : -64 ≤ m) (hi : m ≤ 127) (now : Time) (lifetime : Nat) :
    (Entry.create h m now lifetime).Lawful := by
  refine ⟨?_, ?_, Nat.zero_le 15, by simp [Entry.create]⟩
  · show -512 ≤ 8 * m
    omega
  · show 8 * m ≤ 1016
    omega

theorem Entry.Lawful.update {e : Entry} (he : e.Lawful) {m : Int} (lo : -64 ≤ m) (hi : m ≤ 127) (w : Nat) (now : Time)
    (lifetime : Nat) : (e.update m w now lifetime).Lawful := by
  obtain ⟨flo, fhi, count, -⟩ := he
  have range := filterStep_range w flo fhi lo hi
  exact ⟨range.1, range.2, count, by simp [Entry.update]⟩

theorem Entry.Lawful.goStale {e : Entry} (he : e.Lawful) : e.goStale.Lawful := by
  obtain ⟨flo, fhi, count, -⟩ := he
  exact ⟨flo, fhi, count, by simp [Entry.goStale]⟩

theorem Entry.Lawful.withCount {e : Entry} (he : e.Lawful) {k : Nat} (small : k ≤ 15) :
    ({ e with count := k } : Entry).Lawful := by
  obtain ⟨flo, fhi, -, mark⟩ := he
  exact ⟨flo, fhi, small, mark⟩

/-! ## The list -/

theorem lawfulList_nil : LawfulList [] := ⟨Nat.zero_le 4, List.Pairwise.nil, fun _ he => nomatch he⟩

theorem lawfulList_singleton {e : Entry} (he : e.Lawful) : LawfulList [e] :=
  ⟨by simp, List.pairwise_singleton _ e, fun x hx => by rwa [List.mem_singleton.1 hx]⟩

theorem LawfulList.sublist {l k : List Entry} (hl : LawfulList l) (h : k.Sublist l) : LawfulList k := by
  obtain ⟨short, rising, entries⟩ := hl
  exact ⟨Nat.le_trans h.length_le short, rising.sublist h, fun e he => entries e (h.subset he)⟩

/-- Entries changed one by one, each keeping its head. -/
theorem LawfulList.map {l : List Entry} (hl : LawfulList l) {f : Entry → Entry} (head : ∀ e, (f e).head = e.head)
    (lawful : ∀ e, e.Lawful → (f e).Lawful) : LawfulList (l.map f) := by
  obtain ⟨short, rising, entries⟩ := hl
  refine ⟨by rwa [List.length_map], List.pairwise_map.2 (by simpa only [head] using rising), fun x hx => ?_⟩
  obtain ⟨e, he, rfl⟩ := List.mem_map.1 hx
  exact lawful e (entries e he)

/-- R90: one entry of a full list gives way, so there is room for the new one. -/
theorem length_makeRoom {l : List Entry} (hl : LawfulList l) (now : Time) (serving target : Option HeadNum) :
    (makeRoom now serving target l).length < 4 := by
  obtain ⟨short, rising, -⟩ := hl
  unfold makeRoom
  split
  · next room => exact room
  · next full =>
    have four : ¬ l.length < 4 := full
    obtain ⟨v, hv⟩ := exists_victim (rising.imp Fin.ne_of_lt) (by omega) now serving target
    have fewer : (l.filter fun e => e.head ≠ v.head).length < l.length :=
      List.length_filter_lt_length_iff_exists.2 ⟨v, mem_of_victim hv, by simp⟩
    simp only [hv]
    omega

/-- R76, R87, R88, R90: a sample with a margin in range leaves the list lawful. -/
theorem LawfulList.updateList {l : List Entry} (hl : LawfulList l) {m : Int} (lo : -64 ≤ m) (hi : m ≤ 127) (now : Time)
    (lifetime w : Nat) (serving target : Option HeadNum) (a : HeadNum) :
    LawfulList (updateList now lifetime w serving target a m l) := by
  by_cases known : ∃ e ∈ l, e.head = a
  · rw [updateList_known known]
    refine hl.map (fun e => ?_) fun e he => ?_
    · split <;> rfl
    · split
      · exact he.update lo hi w now lifetime
      · exact he
  · have new : ∀ e ∈ l, e.head ≠ a := fun e he same => known ⟨e, he, same⟩
    have kept := makeRoom_sublist now serving target l
    obtain ⟨-, rising, entries⟩ := hl.sublist kept
    rw [updateList_new new]
    refine ⟨?_, pairwise_insertEntry (fun y hy => new y (kept.subset hy)) rising, fun e he => ?_⟩
    · rw [length_insertEntry]
      exact length_makeRoom hl now serving target
    · rcases (mem_insertEntry ..).1 he with rfl | old
      · exact Entry.create_lawful a lo hi now lifetime
      · exact entries e old

/-- R15, R87: the list that an ADMIT makes. -/
theorem State.firstEntries_lawful (s : State) (h : HeadNum) (sample : Byte) : LawfulList (s.firstEntries h sample) := by
  unfold State.firstEntries
  split
  · next floor _ =>
    obtain ⟨lo, hi⟩ := margin_range sample.toNat floor
    exact lawfulList_singleton (Entry.create_lawful h lo hi _ _)
  · exact lawfulList_nil

/-- R61: a withdrawal takes entries away and changes none. -/
theorem Context.withdrawn_entries (c : Context) (h : HeadNum) (t : Time) :
    (c.withdrawn h t).entries.Sublist c.entries := by
  have kept : (c.entries.filter fun e => e.head ≠ h).Sublist c.entries := List.filter_sublist
  unfold Context.withdrawn
  cases c.state <;> dsimp only
  case free => exact .refl _
  case orphan => exact kept
  case active => split <;> exact kept
  case silent => split <;> exact kept
  case moving =>
    split
    · split <;> exact kept
    · split <;> exact kept

@[simp] theorem Context.started_entries (c : Context) (now : Time) (w : Nat) : (c.started now w).entries = c.entries := by
  unfold Context.started
  split <;> rfl

/-- R103: a trigger count never exceeds the trigger target, which is at most 15 (R163). -/
theorem State.countAfter_le {s : State} (params : s.ParamsInRange) (n : CtxNum) (serving : HeadNum)
    (preferred : Option HeadNum) (v : Int) (e : Entry) : s.countAfter n serving preferred v e ≤ 15 := by
  have target : s.params.ttt.of (s.ctx n).cls ≤ 15 := by
    cases (s.ctx n).cls with
    | none => exact Nat.zero_le 15
    | some c => exact (params (.perClass .ttt c)).2
  unfold State.countAfter
  dsimp only
  split
  · exact Nat.zero_le 15
  · split
    · exact Nat.le_trans (Nat.min_le_right ..) target
    · exact Nat.zero_le 15

end Sys2Proof.Machine
end

section
/-! What the operations of a step do to the measurement lists: the list of every context stays lawful. -/

namespace Sys2Proof.Machine

open Sys2Proof

/-- Every list that is lawful in one store is lawful in the other. -/
structure Store.KeepsLists (a b : Store) : Prop where
  list : ∀ n : CtxNum, LawfulList a.contexts[n].entries → LawfulList b.contexts[n].entries

theorem Store.KeepsLists.refl (a : Store) : a.KeepsLists a := ⟨fun _ => id⟩

theorem Store.KeepsLists.of_eq {a b : Store} (h : b = a) : a.KeepsLists b := h ▸ .refl a

theorem Store.KeepsLists.trans {a b c : Store} (h : a.KeepsLists b) (k : b.KeepsLists c) : a.KeepsLists c :=
  ⟨fun n lawful => k.list n (h.list n lawful)⟩

/-- One record is written, and its list stays lawful. -/
theorem Store.KeepsLists.of_set {s : State} {b : Store} {n : CtxNum} {c : Context} (contexts : b.contexts = s.contexts.set n c)
    (hc : LawfulList (s.ctx n).entries → LawfulList c.entries) : s.store.KeepsLists b := by
  refine ⟨fun m => ?_⟩
  rw [contexts, State.store_contexts_getElem]
  show _ → LawfulList ((s.setCtx n c).ctx m).entries
  rw [State.setCtx_ctx]
  split
  · next e => subst e; exact hc
  · exact id

theorem State.setCtx_keepsLists {s : State} {n : CtxNum} {c : Context}
    (hc : LawfulList (s.ctx n).entries → LawfulList c.entries) : s.store.KeepsLists (s.setCtx n c).store :=
  .of_set rfl hc

theorem Store.Rewrites.keepsLists {s : State} {b : Store} {n : CtxNum} {c : Context} (h : s.store.Rewrites b n c)
    (hc : LawfulList (s.ctx n).entries → LawfulList c.entries) : s.store.KeepsLists b :=
  .of_set h.contexts hc

/-! ## Holds (R30 to R35) -/

theorem State.grantHold_keepsLists (s : State) (n : CtxNum) (ch : ChanNum) : s.store.KeepsLists (s.grantHold n ch).store :=
  .of_set rfl id

theorem State.dropHold_keepsLists (s : State) (n : CtxNum) (ch : ChanNum) : s.store.KeepsLists (s.dropHold n ch).store :=
  .of_set rfl id

theorem State.handOn_keepsLists (s : State) (n : CtxNum) : s.store.KeepsLists (s.handOn n).store := by
  rcases s.handOn_cases n with ⟨-, h⟩ | ⟨ch, rest, -, h⟩ <;> rw [h]
  · exact .refl _
  · exact State.grantHold_keepsLists ((s.setWait n rest).unpark ch) n ch

theorem State.fetchRequest_keepsLists (s : State) (ch : ChanNum) (f : Half) :
    s.store.KeepsLists (s.fetchRequest ch f).store := by
  unfold State.fetchRequest
  split
  · exact .refl _
  · next n _ =>
    split
    · exact .refl _
    · split
      · exact .refl _
      · split
        · exact s.grantHold_keepsLists n ch
        · exact .refl _

theorem State.releaseRequest_keepsLists (s : State) (ch : ChanNum) (f : Half) :
    s.store.KeepsLists (s.releaseRequest ch f).store := by
  unfold State.releaseRequest
  split
  · exact .refl _
  · next n _ =>
    split
    · exact .refl _
    · exact (s.dropHold_keepsLists n ch).trans (State.handOn_keepsLists ((s.dropHold n ch).finish ch releaseCode .done) n)

theorem State.holdExpiry_keepsLists (s : State) (ch : ChanNum) : s.store.KeepsLists (s.holdExpiry ch).store := by
  unfold State.holdExpiry
  split
  · next n _ =>
    split
    · exact (s.dropHold_keepsLists n ch).trans
        (State.handOn_keepsLists ((s.dropHold n ch).raise .holdExpired (.context n)) n)
    · exact .refl _
  · exact .refl _

/-! ## Field sets (R28, R133, R154) -/

theorem State.setDue_keepsLists (s : State) (n : CtxNum) (t : Time) : s.store.KeepsLists (s.setDue n t).store :=
  .of_set rfl id

theorem State.writeProfile_keepsLists (s : State) (n : CtxNum) (a : Applied) :
    s.store.KeepsLists (s.writeProfile n a).store := by
  unfold State.writeProfile
  split
  · exact .refl _
  · dsimp only
    split
    · split
      · exact State.setCtx_keepsLists id
      · refine .trans ?_ (State.setDue_keepsLists ..)
        exact State.setCtx_keepsLists id
    · exact State.setCtx_keepsLists id

theorem State.writeSlotCount_keepsLists (s : State) (n : CtxNum) (a : Applied) :
    s.store.KeepsLists (s.writeSlotCount n a).store := by
  unfold State.writeSlotCount
  split
  · rw [State.resizeSlots_store]
    exact State.setCtx_keepsLists id
  · exact .refl _

theorem State.applyFields_keepsLists (s : State) (n : CtxNum) (a : Applied) :
    s.store.KeepsLists (s.applyFields n a).store :=
  have owner : s.store.KeepsLists (s.setCtx n { s.ctx n with owner := a.owner.getD (s.ctx n).owner }).store :=
    State.setCtx_keepsLists id
  (owner.trans (State.writeProfile_keepsLists _ n a)).trans (State.writeSlotCount_keepsLists _ n a)

theorem State.updateRequest_keepsLists (s : State) (ch : ChanNum) (f : WriteFields) :
    s.store.KeepsLists (s.updateRequest ch f).store := by
  unfold State.updateRequest
  split
  · exact .refl _
  · next n _ =>
    split
    · exact .refl _
    · split
      · exact .refl _
      · split
        · exact .refl _
        · exact s.applyFields_keepsLists n _

theorem State.storeRequest_keepsLists (s : State) (ch : ChanNum) (f : WriteFields) :
    s.store.KeepsLists (s.storeRequest ch f).store := by
  unfold State.storeRequest
  split
  · exact .refl _
  · next n _ =>
    split
    · exact .refl _
    · split
      · exact .refl _
      · next a _ =>
        exact ((s.applyFields_keepsLists n a).trans (State.dropHold_keepsLists _ n ch)).trans
          (State.handOn_keepsLists (((s.applyFields n a).dropHold n ch).finish ch storeCode (.doneFields a)) n)

/-! ## Withdrawal (R61 to R63) -/

theorem State.withdraw_keepsLists (s : State) (h : HeadNum) : s.store.KeepsLists (s.withdraw h).store := by
  refine ⟨fun n lawful => ?_⟩
  rw [State.store_contexts_getElem, State.withdraw_ctx]
  exact lawful.sublist (Context.withdrawn_entries ..)

theorem State.linkLoss_keepsLists (s : State) (h : HeadNum) : s.store.KeepsLists (s.linkLoss h).store := by
  unfold State.linkLoss
  dsimp only
  split
  · have left : s.store.KeepsLists (if (s.headRec h).link = .inService then
        State.withdraw { s with headTx := s.headTx.set h [] } h else { s with headTx := s.headTx.set h [] }).store := by
      split
      · exact State.withdraw_keepsLists { s with headTx := s.headTx.set h [] } h
      · exact .refl _
    split
    · rw [State.raise_store, State.raise_store, State.setHead_store]
      exact left
    · rw [State.raise_store, State.setHead_store]
      exact left
  · exact .refl _

theorem State.headDisable_keepsLists (s : State) (ch : ChanNum) (f : Byte) :
    s.store.KeepsLists (s.headDisable ch f).store := by
  unfold State.headDisable
  split
  · next h _ =>
    rw [State.finish_store]
    unfold State.disableHead
    dsimp only
    split
    · rw [State.raise_store, State.setHead_store]
      exact State.withdraw_keepsLists { s.setHead h { s.headRec h with admin := .disabled } with headTx := _ } h
    · exact .refl _
  · exact .refl _

/-! ## Handovers and silence (R81, R82, R105 to R113, R153) -/

theorem State.giveUpTarget_keepsLists (s : State) (n : CtxNum) : s.store.KeepsLists (s.giveUpTarget n).store :=
  (s.giveUpTarget_rewrites n).keepsLists id

theorem State.fallSilent_keepsLists (s : State) (n : CtxNum) (cause : SilentCause) :
    s.store.KeepsLists (s.fallSilent n cause).store :=
  (s.fallSilent_rewrites n cause).keepsLists id

theorem State.orphan_keepsLists (s : State) (n : CtxNum) : s.store.KeepsLists (s.orphan n).store :=
  (s.orphan_rewrites n).keepsLists id

theorem State.abandonAndFallSilent_keepsLists (s : State) (n : CtxNum) (cause : SilentCause) :
    s.store.KeepsLists (s.abandonAndFallSilent n cause).store := by
  unfold State.abandonAndFallSilent
  split
  · exact (s.giveUpTarget_keepsLists n).trans (State.fallSilent_keepsLists _ n cause)
  all_goals exact s.fallSilent_keepsLists n cause

theorem State.lossDeadline_keepsLists (s : State) (n : CtxNum) : s.store.KeepsLists (s.lossDeadline n).store := by
  unfold State.lossDeadline
  dsimp only
  split
  · exact s.abandonAndFallSilent_keepsLists n .linkLost
  · exact .refl _

theorem State.orphanDeadline_keepsLists (s : State) (n : CtxNum) : s.store.KeepsLists (s.orphanDeadline n).store := by
  unfold State.orphanDeadline
  dsimp only
  split
  · exact s.fallSilent_keepsLists n .orphaned
  · exact .refl _

theorem State.dueExpiry_keepsLists (s : State) : s.store.KeepsLists s.dueExpiry.store := by
  unfold State.dueExpiry
  split
  · split
    · exact s.abandonAndFallSilent_keepsLists _ .reportMissed
    · exact .refl _
  · exact .refl _

theorem State.confirmationDeadline_keepsLists (s : State) (n : CtxNum) :
    s.store.KeepsLists (s.confirmationDeadline n).store := by
  unfold State.confirmationDeadline
  dsimp only
  split
  · refine (s.giveUpTarget_keepsLists n).trans ?_
    split
    · exact State.setCtx_keepsLists id
    · exact State.orphan_keepsLists _ n
  · exact .refl _

theorem State.confirm_keepsLists (s : State) (n : CtxNum) (target : HeadNum) :
    s.store.KeepsLists (s.confirm n target).store := by
  have quay (former : Option HeadNum) (r : State) : (((r.forCrane n fun s =>
      (s.onHead former fun s h => s.freeActive h n).activatePending target n).onHead former State.subLoad).addLoad
        target).store = r.store :=
    ((State.addLoad_store ..).trans (State.onHead_store State.subLoad_store _ _)).trans
      (State.forCrane_store (fun s => (State.activatePending_store ..).trans
        (State.onHead_store (fun s h => s.freeActive_store h n) s _)) r n)
  exact (Store.KeepsLists.of_eq (quay (s.ctx n).serving s)).trans (State.setCtx_keepsLists id)

/-! ## Entry into ACTIVE (R72, R73, R75) -/

theorem State.enterActive_keepsLists (s : State) (n : CtxNum) : s.store.KeepsLists (s.enterActive n).store :=
  (s.enterActive_rewrites n).keepsLists (by rw [Context.started_entries]; exact id)

theorem State.returnFromSilence_keepsLists (s : State) (n : CtxNum) :
    s.store.KeepsLists (s.returnFromSilence n).store :=
  have made : s.store.KeepsLists (s.setCtx n (s.ctx n).returned).store := State.setCtx_keepsLists id
  made.trans (State.enterActive_keepsLists _ n)

theorem State.rehome_keepsLists (s : State) (a : HeadNum) (n : CtxNum) : s.store.KeepsLists (s.rehome a n).store := by
  have given : s.store.KeepsLists (s.given a n).store := .of_set rfl id
  have slots := State.forCrane_store (f := fun u => u.reserveActive a n (u.ctx n).slotNeed)
    (fun u => u.reserveActive_store a n _) (s.given a n) n
  exact (given.trans (.of_eq slots)).trans (State.enterActive_keepsLists _ n)

/-! ## The stages of a contact (R66 to R78) -/

theorem State.judgeRehome_keepsLists (s : State) (a : HeadNum) (n : CtxNum) :
    s.store.KeepsLists (s.judgeRehome a n).1.store := by
  unfold State.judgeRehome
  split
  · exact s.rehome_keepsLists a n
  · exact .refl _

theorem State.giveVerdict_keepsLists (s : State) (a : HeadNum) (n : CtxNum) :
    s.store.KeepsLists (s.giveVerdict a n).1.store := by
  unfold State.giveVerdict
  dsimp only
  split
  · exact .refl _
  · split <;> exact .refl _
  · split
    · exact s.confirm_keepsLists n a
    · split <;> exact .refl _
  · exact s.judgeRehome_keepsLists a n
  · split
    · exact s.returnFromSilence_keepsLists n
    · exact s.judgeRehome_keepsLists a n

theorem State.qualityUpdate_keepsLists (s : State) (a : HeadNum) (n : CtxNum) (sample : Byte) :
    s.store.KeepsLists (s.qualityUpdate a n sample).store := by
  unfold State.qualityUpdate
  split
  · exact .refl _
  · next floor _ =>
    obtain ⟨lo, hi⟩ := margin_range sample.toNat floor
    exact State.setCtx_keepsLists fun lawful => lawful.updateList lo hi ..

theorem State.capturePosition_keepsLists (s : State) (n : CtxNum) (position : Option Half) :
    s.store.KeepsLists (s.capturePosition n position).store := by
  unfold State.capturePosition
  split
  · exact State.setCtx_keepsLists id
  · exact .refl _

theorem State.intake_keepsLists (s : State) (n : CtxNum) (p : ReportPayload) :
    s.store.KeepsLists (s.intake n p).store := by
  unfold State.intake
  split
  · exact .refl _
  · next r _ =>
    split
    · exact .refl _
    · dsimp only
      have stored (t : State) (ht : t = s.setCtx n { s.ctx n with reefer := some (r.take p s.clock) }) (x : Subject)
          (condition : Bool) : s.store.KeepsLists (if condition then t.raise .reeferCondition x else t).store := by
        subst ht
        split <;> exact State.setCtx_keepsLists id
      split
      · exact (stored _ rfl ..).trans (State.setDue_keepsLists ..)
      · exact stored _ rfl ..

theorem State.restartLoss_keepsLists (s : State) (n : CtxNum) : s.store.KeepsLists (s.restartLoss n).store := by
  unfold State.restartLoss
  dsimp only
  split
  · exact State.setCtx_keepsLists id
  · exact .refl _

/-- R105: a handover that starts sets every trigger count to 0. -/
theorem State.startHandover_keepsLists (s : State) (n : CtxNum) (serving target : HeadNum) :
    s.store.KeepsLists (s.startHandover n serving target).store := by
  unfold State.startHandover
  dsimp only
  rw [State.sendHead_store, State.forCrane_store (fun s' => s'.reservePending_store target n _)]
  exact State.setCtx_keepsLists fun lawful => lawful.map (fun _ => rfl) fun _ he => he.withCount (Nat.zero_le 15)

theorem State.setCounts_keepsLists {s : State} (params : s.ParamsInRange) (n : CtxNum) (serving : HeadNum) (v : Int) :
    s.store.KeepsLists (s.setCounts n serving v).store :=
  State.setCtx_keepsLists fun lawful => lawful.map (fun _ => rfl) fun _ he => he.withCount (State.countAfter_le params ..)

theorem State.evaluate_keepsLists {s : State} (params : s.ParamsInRange) (n : CtxNum) :
    s.store.KeepsLists (s.evaluate n).store := by
  unfold State.evaluate
  dsimp only
  split
  · split
    · exact .refl _
    · split
      · exact (State.setCounts_keepsLists params n ..).trans (State.startHandover_keepsLists ..)
      · exact State.setCounts_keepsLists params n ..
  · exact .refl _

theorem State.evaluateAt_keepsLists {s : State} (params : s.ParamsInRange) (a : HeadNum) (n : CtxNum) :
    s.store.KeepsLists (s.evaluateAt a n).store := by
  rcases s.evaluateAt_eq a n with h | h <;> rw [h]
  · exact State.evaluate_keepsLists params n
  · exact (State.setCtx_keepsLists (c := { s.ctx n with awaitsServing := false }) id).trans
      (State.evaluate_keepsLists (s := s.setCtx n _) params n)

theorem State.staleDeadline_keepsLists (s : State) (n : CtxNum) (h : HeadNum) :
    s.store.KeepsLists (s.staleDeadline n h).store := by
  refine State.setCtx_keepsLists fun lawful => lawful.map (fun e => ?_) fun e he => ?_
  · split <;> rfl
  · split
    · exact he.goStale
    · exact he

end Sys2Proof.Machine
end

section
/-! The stages of a contact leave the parameters as they are (R163). -/

namespace Sys2Proof.Machine

open Sys2Proof

theorem State.ParamsInRange.congr {s t : State} (h : s.ParamsInRange) (same : t.params = s.params) : t.ParamsInRange := by
  unfold State.ParamsInRange
  rwa [same]

theorem State.onHead_params {f : State → HeadNum → State} (hf : ∀ s h, (f s h).params = s.params) (s : State)
    (h : Option HeadNum) : (s.onHead h f).params = s.params := by
  cases h with
  | none => rfl
  | some h => exact hf s h

theorem State.forCrane_params {f : State → State} (hf : ∀ s, (f s).params = s.params) (s : State) (n : CtxNum) :
    (s.forCrane n f).params = s.params := by
  unfold State.forCrane
  split
  · exact hf s
  · rfl

@[simp] theorem State.reserveActive_params (s : State) (h : HeadNum) (n : CtxNum) (k : Nat) :
    (s.reserveActive h n k).params = s.params := State.setSlots_params ..

@[simp] theorem State.freeActive_params (s : State) (h : HeadNum) (n : CtxNum) : (s.freeActive h n).params = s.params :=
  State.setSlots_params ..

@[simp] theorem State.activatePending_params (s : State) (h : HeadNum) (n : CtxNum) :
    (s.activatePending h n).params = s.params := State.setSlots_params ..

@[simp] theorem State.takeFrame_params (s : State) (h : HeadNum) : (s.takeFrame h).params = s.params := by
  rw [takeFrame_eq, hearing_params]

@[simp] theorem State.confirm_params (s : State) (n : CtxNum) (target : HeadNum) :
    (s.confirm n target).params = s.params := by
  unfold State.confirm
  dsimp only
  rw [State.setCtx_params, State.addLoad_params, State.onHead_params State.subLoad_params]
  refine State.forCrane_params (fun s => ?_) s n
  rw [State.activatePending_params, State.onHead_params fun s h => s.freeActive_params h n]

@[simp] theorem State.enterActive_params (s : State) (n : CtxNum) : (s.enterActive n).params = s.params := by
  unfold State.enterActive
  dsimp only
  split
  · rfl
  · split <;> rfl
  · rfl
  · rfl

@[simp] theorem State.returnFromSilence_params (s : State) (n : CtxNum) : (s.returnFromSilence n).params = s.params :=
  State.enterActive_params ..

@[simp] theorem State.rehome_params (s : State) (a : HeadNum) (n : CtxNum) : (s.rehome a n).params = s.params := by
  rw [State.rehome_eq_given, State.enterActive_params, State.forCrane_params fun s => s.reserveActive_params a n _]
  rfl

@[simp] theorem State.giveVerdict_params (s : State) (a : HeadNum) (n : CtxNum) :
    (s.giveVerdict a n).1.params = s.params := by
  have judged : (s.judgeRehome a n).1.params = s.params := by
    unfold State.judgeRehome
    split
    · exact State.rehome_params ..
    · rfl
  unfold State.giveVerdict
  dsimp only
  split
  · rfl
  · split <;> rfl
  · split
    · exact State.confirm_params ..
    · split <;> rfl
  · exact judged
  · split
    · exact State.returnFromSilence_params ..
    · exact judged

@[simp] theorem State.qualityUpdate_params (s : State) (a : HeadNum) (n : CtxNum) (x : Byte) :
    (s.qualityUpdate a n x).params = s.params := by
  unfold State.qualityUpdate
  split <;> rfl

@[simp] theorem State.capturePosition_params (s : State) (n : CtxNum) (p : Option Half) :
    (s.capturePosition n p).params = s.params := by
  unfold State.capturePosition
  split <;> rfl

@[simp] theorem State.intake_params (s : State) (n : CtxNum) (q : ReportPayload) : (s.intake n q).params = s.params := by
  unfold State.intake
  split
  · rfl
  · split
    · rfl
    · dsimp only
      split <;> split <;> rfl

@[simp] theorem State.restartLoss_params (s : State) (n : CtxNum) : (s.restartLoss n).params = s.params := by
  unfold State.restartLoss
  dsimp only
  split <;> rfl

end Sys2Proof.Machine
end

section
/-! The tier 3 statement about measurement lists (R86, R89): every step keeps them lawful. -/

namespace Sys2Proof.Machine

open Sys2Proof

/-! ## A contact (R66) -/

theorem State.laterStages_keepsLists {s : State} (params : s.ParamsInRange) (a : HeadNum) (n : CtxNum) (sample : Byte)
    (position : Option Half) (payload : Option ReportPayload) :
    s.store.KeepsLists (s.laterStages a n sample position payload).store := by
  have measured := (s.qualityUpdate_keepsLists a n sample).trans (State.capturePosition_keepsLists _ n position)
  have evaluated {t : State} (kept : s.store.KeepsLists t.store) (same : t.params = s.params) :
      s.store.KeepsLists ((t.restartLoss n).evaluateAt a n).store :=
    (kept.trans (t.restartLoss_keepsLists n)).trans (State.evaluateAt_keepsLists (params.congr (by simp [same])) a n)
  cases payload with
  | none => exact evaluated measured (by simp)
  | some p => exact evaluated (measured.trans (State.intake_keepsLists _ n p)) (by simp)

theorem State.contact_keepsLists {s : State} (params : s.ParamsInRange) (a : HeadNum) (tag : Half) (sample : Byte)
    (position : Option Half) (payload : Option ReportPayload) :
    s.store.KeepsLists (s.contact a tag sample position payload).store := by
  have heard : (s.takeFrame a).ParamsInRange := params.congr (s.takeFrame_params a)
  unfold State.contact
  dsimp only
  rw [← s.takeFrame_store a]
  generalize s.takeFrame a = s at heard
  split
  · rw [State.sendHead_store]
    exact .refl _
  · next n _ =>
    split
    · have judged : (s.giveVerdict a n).1.ParamsInRange := heard.congr (s.giveVerdict_params a n)
      rw [State.sendHead_store]
      exact (s.giveVerdict_keepsLists a n).trans (State.laterStages_keepsLists judged a n sample position payload)
    · rw [State.sendHead_store]
      exact .refl _

/-! ## Records that come and go (R15, R19, R22, R170) -/

theorem State.admitAccepted_keepsLists (s : State) (ch : ChanNum) (f : AdmitFields) (cls : TermClass) (h : HeadNum)
    (n : CtxNum) (rest : List CtxNum) : s.store.KeepsLists (s.admitAccepted ch f cls h n rest).store := by
  rw [State.admitAccepted_eq]
  dsimp only
  rw [State.finish_store]
  refine .trans (.of_set (n := n) (c := s.newRecord f cls h n) ?_ fun _ => ?_) (State.enterActive_keepsLists _ n)
  · rw [State.withAdmitted_store]
  · exact s.firstEntries_lawful h f.sample

theorem State.admission_keepsLists (s : State) (ch : ChanNum) (f : AdmitFields) :
    s.store.KeepsLists (s.admission ch f).store := by
  unfold State.admission
  split
  · next h cls _ _ =>
    split
    · exact .refl _
    · split
      · exact .refl _
      · split
        · exact .refl _
        · split
          · exact .refl _
          · next n rest _ =>
            split
            · exact .refl _
            · split
              · exact .refl _
              · split
                · exact .refl _
                · exact s.admitAccepted_keepsLists ch f cls h n rest
  · exact .refl _

theorem State.retirement_keepsLists (s : State) (ch : ChanNum) (f : Half) :
    s.store.KeepsLists (s.retirement ch f).store := by
  unfold State.retirement
  split
  · exact .refl _
  · next n _ =>
    split
    · exact .refl _
    · next used =>
      split
      · exact .refl _
      · rw [State.finish_store]
        exact .of_set (State.retire_retires used ch).contexts fun _ => lawfulList_nil

theorem Context.flushed_entries_lawful {c : Context} (h : LawfulList c.entries) : LawfulList c.flushed.entries := by
  unfold Context.flushed
  split
  · exact h
  · exact lawfulList_nil

theorem State.flushRequest_keepsLists (s : State) (ch : ChanNum) : s.store.KeepsLists (s.flushRequest ch).store := by
  have kept : (s.cancelParked ch).contexts = s.contexts := ((s.store_eq_iff _).1 (s.cancelParked_store ch)).1
  have contexts : (s.flushRequest ch).store.contexts = s.contexts.map Context.flushed := by
    unfold State.flushRequest
    rw [State.finish_store, State.clearPlans_store]
    simp only [State.emptied, State.store, kept]
  refine ⟨fun n lawful => ?_⟩
  rw [contexts, Fin.getElem_fin, Vector.getElem_map]
  exact Context.flushed_entries_lawful lawful

theorem Store.KeepsLists.of_reset {a b : Store} (h : b = State.reset.store) : a.KeepsLists b := by
  refine ⟨fun n _ => ?_⟩
  rw [h, State.store_contexts_getElem, State.reset_ctx]
  exact lawfulList_nil

theorem State.released_keepsLists (s : State) : s.store.KeepsLists s.released.store := by
  unfold State.released
  split
  · exact .of_reset (by simp only [State.store])
  · exact .refl _

/-! ## A step -/

/-- A command on parameters in range keeps every list lawful. Requests and frames that leave the store alone are grouped: the
tagged lemmas about `store` say so of each. -/
theorem exec_keepsLists {i : Instr} {s t : State} (params : s.ParamsInRange) (h : exec i s = .next t) :
    s.store.KeepsLists t.store := by
  have request {α : Type} {run : α → State → State} (hrun : ∀ f (s : State), s.store.KeepsLists (run f s).store)
      (ch : ChanNum) (code : Byte) (b : Body α) : s.store.KeepsLists (s.takeRequest ch code b run).store :=
    State.takeRequest_rel .refl hrun s ch code b
  have quiet {α : Type} {run : α → State → State} (hrun : ∀ f (s : State), (run f s).store = s.store) (ch : ChanNum)
      (code : Byte) (b : Body α) : s.store.KeepsLists (s.takeRequest ch code b run).store :=
    .of_eq (State.takeRequest_store hrun s ch code b)
  have sweeping {f : State → State} (hf : ∀ s, (f s).store = s.store) (ch : ChanNum) (code : Byte) (b : Body Unit) :
      s.store.KeepsLists (s.takeOnSweeping ch code b f).store :=
    .of_eq (State.takeOnSweeping_store hf s ch code b)
  have running {f : State → State} (hf : s.store.KeepsLists (f s).store) : s.store.KeepsLists (s.whileRunning f).store :=
    State.whileRunning_rel .refl hf
  have runningQuiet {f : State → State} (hf : (f s).store = s.store) : s.store.KeepsLists (s.whileRunning f).store :=
    running (.of_eq hf)
  cases i
  case admitReq ch b => cases h; exact request (fun f s => s.admission_keepsLists ch f) ch _ b
  case retire ch b => cases h; exact request (fun f s => s.retirement_keepsLists ch f) ch _ b
  case flush ch b => cases h; exact request (fun _ s => s.flushRequest_keepsLists ch) ch _ b
  case resetAssert => cases h; exact .of_reset s.inReset_store
  case resetRelease => cases h; exact s.released_keepsLists
  case update ch b => cases h; exact request (fun f s => s.updateRequest_keepsLists ch f) ch _ b
  case fetch ch b => cases h; exact request (fun f s => s.fetchRequest_keepsLists ch f) ch _ b
  case store ch b => cases h; exact request (fun f s => s.storeRequest_keepsLists ch f) ch _ b
  case release ch b => cases h; exact request (fun f s => s.releaseRequest_keepsLists ch f) ch _ b
  case headDisable ch b => cases h; exact request (fun f s => s.headDisable_keepsLists ch f) ch _ b
  case arrival a tag x p => cases h; exact running (State.contact_keepsLists params a tag x p none)
  case report a tag x q => cases h; exact running (State.contact_keepsLists params a tag x none (some q))
  case holdExpiry ch => cases h; exact running (s.holdExpiry_keepsLists ch)
  case linkLoss a => cases h; exact running (s.linkLoss_keepsLists a)
  case lossDeadline n => cases h; exact running (s.lossDeadline_keepsLists n)
  case orphanDeadline n => cases h; exact running (s.orphanDeadline_keepsLists n)
  case confirmationDeadline n => cases h; exact running (s.confirmationDeadline_keepsLists n)
  case staleDeadline n a => cases h; exact running (s.staleDeadline_keepsLists n a)
  case dueExpiry => cases h; exact running s.dueExpiry_keepsLists
  case find | read | sweep | headSet | headEnable | headRead | survey | zoneSet | zoneRead | vesselSet | vesselRead |
      planRead | paramSet | paramRead | eventRead | eventSetup =>
    cases h; exact quiet (fun _ _ => by simp) ..
  case continueSweep | stopSweep => cases h; exact sweeping (fun _ => by simp) ..
  case cancel | keepalive | malformedHeadFrame | parkDeadline | idleDeadline | settleDeadline | surveyEndTime |
      partClockTick =>
    cases h; exact runningQuiet (by simp)
  case noCodeRequestFrame ch => cases h; exact runningQuiet (by split <;> simp)
  case frameDiscard l => cases h; exact .refl _
  case illegal ch code =>
    simp only [exec, execIllegal] at h
    split at h
    · cases h
    · cases h; exact quiet (fun _ s => s.finish_store ch code .illegal) ..
  case channelDiscard channel =>
    simp only [exec, execChannelDiscard] at h
    split at h
    · cases h; exact .refl _
    · cases h

theorem step_keepsLists {s t : State} (params : s.ParamsInRange) (h : step s = .next t) : s.store.KeepsLists t.store := by
  unfold step at h
  split at h
  · next c rest _ => exact exec_keepsLists (s := { s with pending := rest }) params h
  · cases h; exact .of_eq s.transmit_store

/-- Settles O56: a step leaves each list lawful, whatever it does to the record. -/
theorem measurementListsStayLawful : Obligations.MeasurementListsStayLawful :=
  fun s t h params lawful n => (t.ctx n).entriesLawful_iff.2
    ((step_keepsLists params h).list n ((s.ctx n).entriesLawful_iff.1 (lawful n)))

end Sys2Proof.Machine
end

section
/-! The preferred head of a crane by the zone windows (R101, R122) and the shadowing of a head by the vessel windows
(R126). -/

namespace Sys2Proof.Machine

open Sys2Proof

/-! ## Windows of the tables -/

/-- R122: an enabled window that a position lies in. -/
def ZoneWindow.Covers (z : ZoneWindow) (p : Nat) : Prop := z.enabled = true ∧ z.holds p = true

theorem ZoneWindow.covers_iff (z : ZoneWindow) (p : Nat) :
    z.Covers p ↔ z.enabled = true ∧ z.base.toNat ≤ p ∧ p ≤ z.base.toNat + 256 * 2 ^ z.sizeCode.val - 1 := by
  rw [ZoneWindow.Covers, ZoneWindow.holds, decide_eq_true_iff]
  rfl

/-- What stands in a table is the record in one of its places. -/
theorem mem_table {α : Type} {k : Nat} (table : Vector α k) (x : α) : x ∈ table.toList ↔ ∃ i : Fin k, table[i] = x := by
  rw [Vector.mem_toList_iff, Vector.mem_iff_getElem]
  exact ⟨fun ⟨i, hi, found⟩ => ⟨⟨i, hi⟩, found⟩, fun ⟨i, found⟩ => ⟨i, i.isLt, found⟩⟩

theorem State.mem_zones (s : State) (z : ZoneWindow) : z ∈ s.zones.toList ↔ ∃ w, s.zone w = z := mem_table s.zones z

theorem State.mem_vessels (s : State) (v : VesselWindow) : v ∈ s.vessels.toList ↔ ∃ w, s.vessel w = v :=
  mem_table s.vessels v

/-! ## The preferred head -/

/-- R120: the one window that covers a position. -/
theorem State.ZonesLawful.covers_unique {s : State} (lawful : s.ZonesLawful) {p : Nat} {v w : Fin 8}
    (hv : (s.zone v).Covers p) (hw : (s.zone w).Covers p) : v = w :=
  Decidable.byContradiction fun differ => lawful.2 v w differ hv.1 hw.1 p ⟨hv.2, hw.2⟩

theorem State.preferredAt_uncovered {s : State} {p : Nat} (outside : ∀ w, ¬ (s.zone w).Covers p) :
    s.preferredAt p = none := by
  have unfound : (s.zones.toList.find? fun z => z.enabled && z.holds p) = none := by
    rw [List.find?_eq_none]
    intro z listed covers
    obtain ⟨w, rfl⟩ := (s.mem_zones z).1 listed
    exact outside w (Bool.and_eq_true_iff.1 covers)
  rw [State.preferredAt, unfound]

theorem State.preferredAt_covered {s : State} (lawful : s.ZonesLawful) {p : Nat} {w : Fin 8}
    (covers : (s.zone w).Covers p) : s.preferredAt p = (s.zone w).headAt p := by
  have found : (s.zones.toList.find? fun z => z.enabled && z.holds p) = some (s.zone w) := by
    cases first : s.zones.toList.find? fun z => z.enabled && z.holds p with
    | none =>
      exact absurd (Bool.and_eq_true_iff.2 covers) (List.find?_eq_none.1 first _ ((s.mem_zones _).2 ⟨w, rfl⟩))
    | some z =>
      obtain ⟨v, rfl⟩ := (s.mem_zones z).1 (List.mem_of_find?_eq_some first)
      have covering : (s.zone v).Covers p :=
        Bool.and_eq_true_iff.1 (List.find?_some (p := fun z : ZoneWindow => z.enabled && z.holds p) first)
      rw [lawful.covers_unique covering covers]
  rw [State.preferredAt, found]

/-- R122: a position within a window lies in one of its four quarters. -/
theorem ZoneWindow.quarter_lt {z : ZoneWindow} {p : Nat} (covers : z.Covers p) : z.quarter p < 4 := by
  obtain ⟨-, low, high⟩ := (z.covers_iff p).1 covers
  have size : z.size = 4 * (64 * 2 ^ z.sizeCode.val) := by
    rw [ZoneWindow.size, zoneSize]; omega
  have pos : 0 < 2 ^ z.sizeCode.val := Nat.two_pow_pos _
  rw [ZoneWindow.quarter, size, Nat.mul_div_cancel_left _ (by decide), Nat.div_lt_iff_lt_mul (by omega)]
  omega

theorem ZoneWindow.headAt_eq (z : ZoneWindow) {p : Nat} (inside : z.quarter p < 4) :
    z.headAt p = z.quarters[z.quarter p] := by
  simp [ZoneWindow.headAt, inside]

/-- A context without a last position has no preferred head (R101). -/
theorem State.preferred_nowhere {s : State} {n : CtxNum}
    (nowhere : ∀ part, (s.ctx n).crane = some part → part.position = none) : s.preferred n = none := by
  unfold State.preferred
  split
  · next part crane => rw [nowhere part crane]
  · rfl

theorem State.preferred_at {s : State} {n : CtxNum} {part : CranePart} {p : Half} (crane : (s.ctx n).crane = some part)
    (position : part.position = some p) : s.preferred n = s.preferredAt p.toNat := by
  simp only [State.preferred, crane, position]

/-! ## Shadows -/

/-- R124: a position never lies past the end of the quay, so the cut of a window there excludes none. -/
theorem VesselWindow.holds_iff (v : VesselWindow) (p : Half) :
    v.holds p.toNat = true ↔ v.start.toNat ≤ p.toNat ∧ p.toNat ≤ v.start.toNat + v.length - 1 := by
  have inQuay := p.isLt
  rw [VesselWindow.holds, VesselWindow.upper, decide_eq_true_iff]
  omega

theorem State.shadowed_iff (s : State) (h : HeadNum) :
    s.shadowed h = true ↔
      (s.headRec h).side = .waterside ∧
      ∃ p, (s.headRec h).position = some p ∧ ∃ w, (s.vessel w).enabled = true ∧ (s.vessel w).holds p.toNat = true := by
  have holder (p : Half) : (s.vessels.toList.any fun v => v.enabled && v.holds p.toNat) = true ↔
      ∃ w, (s.vessel w).enabled = true ∧ (s.vessel w).holds p.toNat = true := by
    rw [List.any_eq_true]
    constructor
    · rintro ⟨v, listed, holds⟩
      obtain ⟨w, rfl⟩ := (s.mem_vessels v).1 listed
      exact ⟨w, Bool.and_eq_true_iff.1 holds⟩
    · rintro ⟨w, holds⟩
      exact ⟨s.vessel w, (s.mem_vessels _).2 ⟨w, rfl⟩, Bool.and_eq_true_iff.2 holds⟩
  unfold State.shadowed
  split
  · next p side position => simpa [side, position] using holder p
  · next other =>
    simp only [Bool.false_eq_true, false_iff]
    rintro ⟨side, p, position, -⟩
    exact other p side position

/-- Settles O41: the preferred head by where the crane stands, then the shadows of a head. -/
theorem preferredHeadsAndShadows : Obligations.PreferredHeadsAndShadows := by
  refine ⟨fun s n lawful => ⟨State.preferred_nowhere, fun part p crane position => ?_⟩, fun s h => ?_⟩
  · have covers (w : Fin 8) := (s.zone w).covers_iff p.toNat
    intro inside
    rw [State.preferred_at crane position]
    refine ⟨fun outside => State.preferredAt_uncovered fun w => mt (covers w).1 (outside w), fun w within => ?_⟩
    have covered := (covers w).2 within
    have quarter := ZoneWindow.quarter_lt covered
    exact ⟨⟨_, quarter⟩, rfl, by rw [State.preferredAt_covered lawful covered, ZoneWindow.headAt_eq _ quarter]; rfl⟩
  · simp only [s.shadowed_iff, VesselWindow.holds_iff]

end Sys2Proof.Machine
end

section
/-! The evaluation of stage 7 (R99 to R104): the trigger counts, the choice among the entries at the trigger target, and the
handover that it starts. -/

namespace Sys2Proof.Machine

open Sys2Proof

/-! ## Comparison values and eligibility (R100, R101) -/

/-- R101: the bonus is added for the preferred head alone. -/
theorem compareValue_eq (preferred : Option HeadNum) (bonus : Nat) (e : Entry) :
    compareValue preferred bonus e = e.f + (if preferred = some e.head then (bonus : Int) else 0) := by
  unfold compareValue
  split
  · rfl
  · exact (Int.add_zero _).symm

theorem State.eligible_iff {s : State} {n : CtxNum} {k : TermClass} (cls : (s.ctx n).cls = some k) (e : Entry) :
    s.eligible n e = true ↔
      e.stale = false ∧ s.shadowed e.head = false ∧ (s.headRec e.head).load < (s.headRec e.head).capacity ∧
        (k = .crane → (s.ctx n).slotNeed ≤ s.freeCount e.head) := by
  simp only [State.eligible, cls, Bool.and_eq_true, Bool.or_eq_true, Bool.not_eq_true', decide_eq_true_eq, and_assoc,
    ne_eq, Option.some.injEq, Decidable.imp_iff_not_or]

/-- R103: a candidate that is eligible and leads by the hysteresis counts up to the trigger target; any other entry stands
at 0. -/
theorem State.countAfter_eq {s : State} {n : CtxNum} {k : TermClass} (cls : (s.ctx n).cls = some k) (serving : HeadNum)
    (preferred : Option HeadNum) (v : Int) (e : Entry) :
    s.countAfter n serving preferred v e =
      if e.head ≠ serving ∧ s.eligible n e = true ∧
          v + s.params.hysteresis.get k ≤ compareValue preferred (s.params.bonus.get k) e then
        min (e.count + 1) (s.params.ttt.get k)
      else 0 := by
  simp only [State.countAfter, cls, PerClass.of_some]
  by_cases own : e.head = serving
  · simp [own]
  · simp [own]

/-! ## The choice (R104) -/

theorem betterTarget_iff (preferred : Option HeadNum) (bonus : Nat) (x y : Entry) :
    betterTarget preferred bonus x y = true ↔
      compareValue preferred bonus y < compareValue preferred bonus x ∨
        compareValue preferred bonus x = compareValue preferred bonus y ∧ x.head < y.head :=
  decide_eq_true_iff

theorem betterTarget_ranks (preferred : Option HeadNum) (bonus : Nat) : RanksHeads (betterTarget preferred bonus) where
  trans x y z := by simp only [betterTarget_iff, Fin.lt_def]; intro h k; omega
  asymm x y := by simp only [← Bool.not_eq_true, betterTarget_iff, Fin.lt_def]; intro h; omega
  total x y := by simp only [betterTarget_iff, Fin.lt_def, ne_eq, Fin.ext_iff]; intro differ; omega

/-- The trigger count of an entry has no part in the comparison (R101). -/
theorem betterTarget_withCount (preferred : Option HeadNum) (bonus : Nat) (x y : Entry) (i j : Nat) :
    betterTarget preferred bonus { x with count := i } { y with count := j } = betterTarget preferred bonus x y := rfl

/-- R104: an entry open to the choice among the entries with their new counts. -/
def Triggered (serving : HeadNum) (ttt : Nat) (count : Entry → Nat) (l : List Entry) (e : Entry) : Prop :=
  e ∈ l ∧ e.head ≠ serving ∧ count e = ttt

/-- R103: a measurement list with the trigger counts that an evaluation gives. -/
def withCounts (count : Entry → Nat) (l : List Entry) : List Entry := l.map fun e => { e with count := count e }

theorem withCounts_differ {l : List Entry} (differ : l.Pairwise fun y z => y.head ≠ z.head) (count : Entry → Nat) :
    (withCounts count l).Pairwise fun y z => y.head ≠ z.head := List.pairwise_map.2 differ

theorem mem_triggered (serving : HeadNum) (ttt : Nat) (count : Entry → Nat) (l : List Entry) (x : Entry) :
    (x ∈ (withCounts count l).filter fun e => e.head ≠ serving ∧ e.count = ttt) ↔
      ∃ e, Triggered serving ttt count l e ∧ { e with count := count e } = x := by
  simp only [withCounts, List.mem_filter, List.mem_map, decide_eq_true_eq]
  constructor
  · rintro ⟨⟨e, listed, rfl⟩, other, full⟩
    exact ⟨e, ⟨listed, other, full⟩, rfl⟩
  · rintro ⟨e, ⟨listed, other, full⟩, rfl⟩
    exact ⟨⟨e, listed, rfl⟩, other, full⟩

theorem chooseTarget_none {serving : HeadNum} {ttt : Nat} {count : Entry → Nat} {l : List Entry}
    (unready : ∀ e, ¬ Triggered serving ttt count l e) (preferred : Option HeadNum) (bonus : Nat) :
    chooseTarget serving preferred bonus ttt (withCounts count l) = none := by
  rw [chooseTarget, Option.map_eq_none_iff, firstBy_eq_none, List.eq_nil_iff_forall_not_mem]
  intro x listed
  obtain ⟨e, ready, -⟩ := (mem_triggered serving ttt count l x).1 listed
  exact unready e ready

/-- R104: the best of the entries at the trigger target is the target. -/
theorem chooseTarget_some {serving : HeadNum} {ttt : Nat} {count : Entry → Nat} {l : List Entry}
    (differ : l.Pairwise fun y z => y.head ≠ z.head) {preferred : Option HeadNum} {bonus : Nat} {e : Entry}
    (ready : Triggered serving ttt count l e)
    (best : ∀ d, Triggered serving ttt count l d → d ≠ e → betterTarget preferred bonus e d = true) :
    chooseTarget serving preferred bonus ttt (withCounts count l) = some e.head := by
  have first : firstBy (betterTarget preferred bonus)
      ((withCounts count l).filter fun e => e.head ≠ serving ∧ e.count = ttt) = some { e with count := count e } := by
    rw [firstBy_eq_some_iff (betterTarget_ranks preferred bonus) ((withCounts_differ differ count).filter _)]
    refine ⟨(mem_triggered ..).2 ⟨e, ready, rfl⟩, fun x listed other => ?_⟩
    obtain ⟨d, dReady, rfl⟩ := (mem_triggered ..).1 listed
    rw [betterTarget_withCount]
    exact best d dReady fun same => other (by rw [same])
  rw [chooseTarget, first, Option.map_some]

/-! ## The evaluation -/

/-- R86: the entry of the serving head is found in a list in ascending order of heads. -/
theorem find_serving {l : List Entry} (rising : l.Pairwise fun y z => y.head < z.head) {own : Entry} (listed : own ∈ l) :
    (l.find? fun e => e.head = own.head) = some own := by
  cases found : l.find? fun e => e.head = own.head with
  | none => exact absurd (decide_eq_true rfl) (List.find?_eq_none.1 found own listed)
  | some e =>
    have same : e.head = own.head :=
      of_decide_eq_true (List.find?_some (p := fun x : Entry => decide (x.head = own.head)) found)
    rw [eq_of_head_eq rising (List.mem_of_find?_eq_some found) listed same]

/-- R99: only an ACTIVE context with a serving head is evaluated. -/
theorem State.evaluate_closed {s : State} {n : CtxNum} (closed : (s.ctx n).state ≠ .active ∨ (s.ctx n).serving = none) :
    s.evaluate n = s := by
  unfold State.evaluate
  dsimp only
  split
  · next active serves =>
    rcases closed with notActive | unserved
    · exact absurd active notActive
    · exact absurd (serves.symm.trans unserved) (Option.some_ne_none _)
  · rfl

/-- R103: the trigger counts of an evaluation, by the serving entry. -/
def State.newCount (s : State) (n : CtxNum) (k : TermClass) (own : Entry) : Entry → Nat :=
  s.countAfter n own.head (s.preferred n) (compareValue (s.preferred n) (s.params.bonus.get k) own)

/-- R103: the state with the trigger counts of an evaluation. -/
def State.recounted (s : State) (n : CtxNum) (k : TermClass) (own : Entry) : State :=
  s.setCtx n { s.ctx n with entries := withCounts (s.newCount n k own) (s.ctx n).entries }

theorem State.recounted_entries (s : State) (n : CtxNum) (k : TermClass) (own : Entry) :
    ((s.recounted n k own).ctx n).entries = withCounts (s.newCount n k own) (s.ctx n).entries := by
  rw [State.recounted, State.setCtx_ctx_self]

/-- R104: the choice among the entries of a context with their new counts. -/
def State.choice (s : State) (n : CtxNum) (k : TermClass) (own : Entry) : Option HeadNum :=
  chooseTarget own.head (s.preferred n) (s.params.bonus.get k) (s.params.ttt.get k)
    (withCounts (s.newCount n k own) (s.ctx n).entries)

/-- R103, R104: the counts are set, and a handover starts toward the entry chosen, where there is one. -/
theorem State.evaluate_open {s : State} {n : CtxNum} {k : TermClass} {own : Entry}
    (active : (s.ctx n).state = .active) (serves : (s.ctx n).serving = some own.head) (listed : own ∈ (s.ctx n).entries)
    (cls : (s.ctx n).cls = some k) (rising : (s.ctx n).entries.Pairwise fun y z => y.head < z.head) :
    s.evaluate n =
      (s.choice n k own).elim (s.recounted n k own) fun target =>
        (s.recounted n k own).startHandover n own.head target := by
  have counted : s.setCounts n own.head (compareValue (s.preferred n) (s.params.bonus.get k) own) = s.recounted n k own :=
    rfl
  have choice : chooseTarget own.head (s.preferred n) (s.params.bonus.get k) (s.params.ttt.get k)
      (withCounts (s.newCount n k own) (s.ctx n).entries) = s.choice n k own := rfl
  simp only [State.evaluate, active, serves, find_serving rising listed, cls, PerClass.of_some, counted,
    State.recounted_entries, choice]
  cases s.choice n k own <;> rfl

/-- Settles O39: which contacts and contexts are evaluated, then the counts, and the choice with them. -/
theorem evaluationCountsAndChooses : Obligations.EvaluationCountsAndChooses := by
  intro s n c
  refine ⟨fun a => ⟨fun serves => if_pos serves, fun other => if_neg other⟩, State.evaluate_closed,
    fun h own k active serves listed atHead cls rising => ?_⟩
  subst atHead
  have differ := rising.imp Fin.ne_of_lt
  intro value count ready counted
  have values (e : Entry) : compareValue (s.preferred n) (s.params.bonus.get k) e = value e := compareValue_eq ..
  have counts : s.newCount n k own = count := by
    funext e
    rw [State.newCount, State.countAfter_eq cls, values, values]
    simp only [State.eligible_iff cls, and_assoc]
    rfl
  have recounted : s.recounted n k own = counted := by
    rw [State.recounted, counts]
    rfl
  have choice : s.choice n k own =
      chooseTarget own.head (s.preferred n) (s.params.bonus.get k) (s.params.ttt.get k) (withCounts count c.entries) := by
    rw [State.choice, counts]
  rw [State.evaluate_open active serves listed cls rising, recounted, choice]
  refine ⟨fun unready => ?_, fun e isReady best => ?_⟩
  · rw [chooseTarget_none unready, Option.elim_none]
  · rw [chooseTarget_some differ isReady fun d dReady other => ?_, Option.elim_some]
    rw [betterTarget_iff, values, values]
    exact (best d dReady other).imp_right fun ⟨same, lower⟩ => ⟨same.symm, lower⟩

end Sys2Proof.Machine
end

section
/-! The start of a handover (R105 to R107, R134): the record, the slots kept pending on the target, and the ORDER. -/

namespace Sys2Proof.Machine

open Sys2Proof

/-- No message appended leaves the queues. -/
theorem queueOn_nil (q : Vector (List HeadMsg) 16) (h : HeadNum) : queueOn q h [] = q := by
  simp [queueOn]

/-- The slots that a handover takes on its target: those of a CRANE alone (R106, R134). -/
def State.targetSlots (s : State) (k : TermClass) (target : HeadNum) (count : Nat) : List SlotNum :=
  if k = .crane then s.lowestFree target count else []

/-- R106, R134: everything the reservation of pending slots does on a target in service, for a context of any class. -/
theorem State.reserveTarget_eq {s : State} {n : CtxNum} {target : HeadNum} {k : TermClass}
    (cls : (s.ctx n).cls = some k) (inService : s.inService target = true) (count : Nat) :
    (s.forCrane n fun s => s.reservePending target n count) = { s with
      plans := if k = .crane then
          s.plans.set target ((s.plan target).fill (s.targetSlots k target count) (.pending n))
        else s.plans
      headTx := queueOn s.headTx target (planMessages (s.targetSlots k target count) (.pending (s.tag n))) } := by
  unfold State.targetSlots
  by_cases crane : k = .crane
  · rw [State.forCrane_crane (by rw [cls, crane]), if_pos crane, if_pos crane]
    exact State.setSlots_eq inService _ _
  · rw [State.forCrane_slotless (by simpa [cls] using crane), if_neg crane, if_neg crane, planMessages, List.map_nil,
      queueOn_nil]

/-- The record of a context whose handover has started (R105). -/
def Context.bound (c : Context) (target : HeadNum) (confirmAt : Time) : Context :=
  { c with
    state := .moving, target := some target, confirmAt := some confirmAt
    entries := c.entries.map fun e => { e with count := 0 } }

/-- R105: the state in which the record is MOVING toward its target, before any slot or message. -/
def State.bound (s : State) (n : CtxNum) (k : TermClass) (target : HeadNum) : State :=
  s.setCtx n ((s.ctx n).bound target (after s.clock (s.params.confirmWindow.get k)))

@[simp] theorem State.bound_cls (s : State) (n : CtxNum) (k : TermClass) (target : HeadNum) :
    ((s.bound n k target).ctx n).cls = (s.ctx n).cls := by
  rw [State.bound, State.setCtx_ctx_self, Context.bound]

/-- R7: the start of a handover leaves the tag. -/
@[simp] theorem State.bound_tag (s : State) (n : CtxNum) (k : TermClass) (target : HeadNum) :
    (s.bound n k target).tag n = s.tag n := by
  rw [State.tag, State.bound, State.setCtx_ctx_self, Context.bound, State.tag]

/-- R105 to R107: the record first, then the slots, then the ORDER. -/
theorem State.startHandover_eq {s : State} {n : CtxNum} {k : TermClass} (cls : (s.ctx n).cls = some k)
    (h target : HeadNum) :
    s.startHandover n h target =
      let t := (s.bound n k target).forCrane n fun s' => s'.reservePending target n (s.ctx n).slotNeed
      t.sendHead h (.order (t.tag n) target (s.targetSlots k target (s.ctx n).slotNeed)) := by
  have slots : (if (s.ctx n).cls = some .crane then s.lowestFree target (s.ctx n).slotNeed else []) =
      s.targetSlots k target (s.ctx n).slotNeed := by
    simp only [cls, Option.some.injEq, State.targetSlots]
  have window : s.params.confirmWindow.of (s.ctx n).cls = s.params.confirmWindow.get k := by rw [cls, PerClass.of_some]
  unfold State.startHandover
  dsimp only
  rw [slots, window]
  rfl

/-- Settles O40: the record, the slots of the target and the ORDER, one after another. -/
theorem handoverStartsWithItsOrder : Obligations.HandoverStartsWithItsOrder := by
  intro s n h target k serves inService _ cls c slots
  have reserved := State.reserveTarget_eq (s := s.bound n k target) ((s.bound_cls n k target).trans cls) inService c.slotNeed
  rw [State.bound_tag] at reserved
  rw [State.startHandover_eq cls]
  dsimp only
  generalize ((s.bound n k target).forCrane n fun s' => s'.reservePending target n (s.ctx n).slotNeed) = t at reserved ⊢
  have tag : t.tag n = s.tag n := by
    rw [← s.bound_tag n k target, reserved]; rfl
  rw [State.sendHead_eq (by rw [reserved]; exact serves), tag, reserved]
  rfl

end Sys2Proof.Machine
end

section
/-! The confirmation of a handover by its target (R110, R111, R135): the slots, the loads and the record. -/

namespace Sys2Proof.Machine

open Sys2Proof

/-! ## The slots of a crane -/

/-- R135: a CRANE's active slots on its former head are freed, and its pending ones on the target become active. -/
def State.slotsMoved (s : State) (n : CtxNum) (a : HeadNum) : State :=
  s.forCrane n fun s' => (s'.clearOn (s.ctx n).serving (.active n)).activatePending a n

theorem State.slotsMoved_crane {s : State} {n : CtxNum} (crane : (s.ctx n).cls = some .crane) (a : HeadNum) :
    s.slotsMoved n a =
      (s.clearOn (s.ctx n).serving (.active n)).setSlots a ((s.plan a).slotsWith (.pending n)) (.active n) := by
  rw [State.slotsMoved, State.forCrane_crane crane, State.activatePending, State.clearOn_active_pending]

theorem State.slotsMoved_slotless {s : State} {n : CtxNum} (slotless : (s.ctx n).cls ≠ some .crane) (a : HeadNum) :
    s.slotsMoved n a = s := State.forCrane_slotless slotless _

/-- Nothing but plans and head queues changes when the slots move. -/
theorem State.slotsMoved_eq (s : State) (n : CtxNum) (a : HeadNum) :
    s.slotsMoved n a = { s with plans := (s.slotsMoved n a).plans, headTx := (s.slotsMoved n a).headTx } := by
  by_cases crane : (s.ctx n).cls = some .crane
  · have cleared := s.clearOn_eq (s.ctx n).serving (.active n)
    rw [State.slotsMoved_crane crane]
    generalize s.clearOn (s.ctx n).serving (.active n) = t at cleared ⊢
    rw [cleared]
    apply State.ext <;> simp
  · rw [State.slotsMoved_slotless crane]

theorem State.slotsMoved_slot {s : State} {n : CtxNum} {a : HeadNum} (crane : (s.ctx n).cls = some .crane)
    (apart : (s.ctx n).serving ≠ some a) (h : HeadNum) (i : SlotNum) :
    ((s.slotsMoved n a).plan h)[i] =
      if h = a ∧ (s.plan h)[i] = .pending n then .active n
      else if (s.ctx n).serving = some h ∧ (s.plan h)[i] = .active n then .free else (s.plan h)[i] := by
  rw [State.slotsMoved_crane crane, State.setSlots_slot, State.clearOn_slot]
  by_cases target : h = a
  · subst target
    simp [Plan.mem_slotsWith, apart]
  · simp [target]

theorem State.slotsMoved_headTx {s : State} {n : CtxNum} {a : HeadNum} (crane : (s.ctx n).cls = some .crane)
    (apart : (s.ctx n).serving ≠ some a) (h : HeadNum) :
    (s.slotsMoved n a).headTx[h] = s.headTx[h] ++
      (if s.inService h = false then []
      else if h = a then planMessages ((s.plan h).slotsWith (.pending n)) (.active (s.tag n))
      else if (s.ctx n).serving = some h then planMessages ((s.plan h).slotsWith (.active n)) .free else []) := by
  have entry : (s.clearOn (s.ctx n).serving (.active n)).planEntry (.active n) = .active (s.tag n) := by
    rw [State.clearOn_eq]; rfl
  have freed := s.clearOn_headTx (s.ctx n).serving (.active n) h
  rw [State.slotsMoved_crane crane, State.setSlots_headTx, State.clearOn_inService, entry]
  generalize (s.clearOn (s.ctx n).serving (.active n)).headTx = q at freed ⊢
  by_cases target : a = h
  · subst target
    cases serves : s.inService a <;> simp [serves, freed, apart, planMessages]
  · have other : (if s.inService a then q.set a (q[a] ++ ((s.plan a).slotsWith (.pending n)).map fun i =>
        HeadMsg.plan i (.active (s.tag n))) else q)[h] = q[h] := by
      split
      · exact Vector.getElem_set_ne _ _ fun same => target (Fin.ext same)
      · rfl
    rw [other, freed, if_neg (Ne.symm target)]
    cases s.inService h <;> simp

/-! ## The loads -/

/-- R111: a context counts on its target and no longer on its former head. -/
def State.loadMoved (s : State) (former : Option HeadNum) (a : HeadNum) : State :=
  (s.onHead former State.subLoad).addLoad a

/-- The loads are moved by what the head records hold, whatever else the state holds. -/
theorem State.loadMoved_congr {s t : State} (heads : t.heads = s.heads) (former : Option HeadNum) (a : HeadNum) :
    t.loadMoved former a = { t with heads := (s.loadMoved former a).heads } := by
  cases former <;>
    simp only [State.loadMoved, State.onHead, State.subLoad, State.addLoad, State.setHead, State.headRec, heads]

theorem State.loadMoved_headRec {s : State} {former : Option HeadNum} {a : HeadNum} (apart : former ≠ some a)
    (h : HeadNum) :
    (s.loadMoved former a).headRec h = { s.headRec h with
      load := if h = a then (s.headRec h).load + 1
        else if former = some h then (s.headRec h).load - 1 else (s.headRec h).load } := by
  rw [State.loadMoved, State.addLoad, State.setHead_headRec]
  by_cases target : a = h
  · subst target
    simp [State.subLoadOn_headRec, apart]
  · simp [target, Ne.symm target, State.subLoadOn_headRec]

/-! ## The confirmation -/

/-- R110: everything a confirmation does, with the slots and the loads as they have moved. -/
theorem State.confirm_eq (s : State) (n : CtxNum) (a : HeadNum) :
    s.confirm n a = { s with
      contexts := s.contexts.set n
        { s.ctx n with state := .active, serving := some a, target := none, confirmAt := none }
      heads := (s.loadMoved (s.ctx n).serving a).heads
      plans := (s.slotsMoved n a).plans, headTx := (s.slotsMoved n a).headTx } := by
  have slots := s.slotsMoved_eq n a
  have loads := State.loadMoved_congr (s := s) (t := s.slotsMoved n a) (by rw [slots]) (s.ctx n).serving a
  have confirmed : s.confirm n a =
      let t := (s.slotsMoved n a).loadMoved (s.ctx n).serving a
      t.setCtx n { t.ctx n with state := .active, serving := some a, target := none, confirmAt := none } := rfl
  rw [confirmed, loads]
  generalize s.slotsMoved n a = t at slots ⊢
  rw [slots]
  rfl

/-- Settles O34: the whole next state, then on each head the load, the slots of a CRANE and its messages. -/
theorem confirmationMovesTheContext : Obligations.ConfirmationMovesTheContext := by
  intro a n s apart c crane
  have whole := s.confirm_eq n a
  refine ⟨_, rfl, ?_, fun h => ⟨?_, fun isCrane => ⟨fun i => ?_, ?_⟩, fun notCrane => ?_⟩⟩
  · rw [whole]
  · rw [whole]; exact State.loadMoved_headRec apart h
  · rw [whole]; exact State.slotsMoved_slot isCrane apart h i
  · rw [whole]; exact State.slotsMoved_headTx isCrane apart h
  · rw [whole, State.slotsMoved_slotless notCrane]
    exact ⟨rfl, rfl⟩

end Sys2Proof.Machine
end

section
/-! The confirmation deadline of a MOVING context (R112, R113, R136): the target given up, then ACTIVE on the serving head or
ORPHAN without one. -/

namespace Sys2Proof.Machine

open Sys2Proof

/-- R113, R136: the state in which a CRANE's pending slots on a target are free and the target has been told so. -/
def State.targetFreed (s : State) (n : CtxNum) (target : HeadNum) : State := { s with
  plans := if (s.ctx n).cls = some .crane then
      s.plans.set target ((s.plan target).fill ((s.plan target).slotsWith (.pending n)) .free)
    else s.plans
  headTx := if (s.ctx n).cls = some .crane then
      queueOn s.headTx target (planMessages ((s.plan target).slotsWith (.pending n)) .free)
    else s.headTx }

/-- R113: everything the giving up of a target in service does, for a context of any class. -/
theorem State.giveUpTarget_eq {s : State} {n : CtxNum} {target : HeadNum} (toward : (s.ctx n).target = some target)
    (inService : s.inService target = true) :
    s.giveUpTarget n =
      ((s.targetFreed n target).setCtx n (s.ctx n).withoutTarget).raise .handoverFailed (.context n) := by
  unfold State.targetFreed
  by_cases crane : (s.ctx n).cls = some .crane
  · rw [State.giveUpTarget_crane crane toward inService, if_pos crane, if_pos crane]
    rfl
  · rw [State.giveUpTarget_slotless crane, if_neg crane, if_neg crane]
    rfl

/-- An event raised and the write of a record may change places. -/
theorem State.raise_setCtx (s : State) (e : EventClass) (x : Subject) (n : CtxNum) (c : Context) :
    (s.raise e x).setCtx n c = (s.setCtx n c).raise e x := rfl

theorem State.raise_orphan (s : State) (e : EventClass) (x : Subject) (n : CtxNum) :
    (s.raise e x).orphan n = (s.orphan n).raise e x := rfl

/-- R62: a record that was just written enters ORPHAN. -/
theorem State.orphan_setCtx (s : State) (n : CtxNum) (c : Context) :
    (s.setCtx n c).orphan n =
      { s.setCtx n (c.enterOrphan (after s.clock (1000 * s.params.orphanLimit))) with
        dueList := s.dueList.filter (· ≠ n) } := by
  simp only [State.orphan, State.setCtx_ctx_self, State.setCtx_setCtx, State.setCtx_clock, State.setCtx_params,
    State.setCtx_dueList]

/-- R62: a record without a serving head enters ORPHAN. -/
theorem Context.enterOrphan_unserved {c : Context} (unserved : c.serving = none) (orphanAt : Time) :
    c.enterOrphan orphanAt = { c.withDue none with state := .orphan, lossAt := none, orphanAt := some orphanAt } := by
  rw [Context.enterOrphan, ← unserved]
  rfl

theorem exec_confirmationDeadline {s : State} (running : s.resetLow = false) (n : CtxNum) :
    exec (.confirmationDeadline n) s = .next (s.confirmationDeadline n) :=
  congrArg Host.Outcome.next (State.whileRunning_high running _)

theorem State.confirmationDeadline_early {s : State} {n : CtxNum}
    (early : (s.ctx n).state ≠ .moving ∨ expired s.clock (s.ctx n).confirmAt = false) :
    s.confirmationDeadline n = s := by
  refine if_neg fun ⟨moving, elapsed⟩ => ?_
  rcases early with notMoving | before
  · exact notMoving moving
  · exact Bool.false_ne_true (before.symm.trans elapsed)

/-- R112: with a serving head the context returns to ACTIVE after its target is given up. -/
theorem State.confirmationDeadline_served {s : State} {n : CtxNum} (moving : (s.ctx n).state = .moving)
    (elapsed : expired s.clock (s.ctx n).confirmAt = true) (served : (s.ctx n).serving ≠ none) :
    s.confirmationDeadline n =
      (s.giveUpTarget n).setCtx n { (s.giveUpTarget n).ctx n with state := .active } := by
  obtain ⟨h, serves⟩ := Option.ne_none_iff_exists'.1 served
  simp only [State.confirmationDeadline, moving, elapsed, serves, and_self, if_true]

/-- R112: without a serving head the context enters ORPHAN after its target is given up. -/
theorem State.confirmationDeadline_unserved {s : State} {n : CtxNum} (moving : (s.ctx n).state = .moving)
    (elapsed : expired s.clock (s.ctx n).confirmAt = true) (unserved : (s.ctx n).serving = none) :
    s.confirmationDeadline n = ((s.giveUpTarget n).orphan n).raise .contextOrphaned (.context n) := by
  simp only [State.confirmationDeadline, moving, elapsed, unserved, and_self, if_true]

/-- Settles O42: before the deadline; then, at the deadline, with a serving head and without one. -/
theorem confirmationDeadlineFailsTheHandover : Obligations.ConfirmationDeadlineFailsTheHandover := by
  intro s n running c
  refine ⟨fun early => ?_, fun target moving elapsed toward inService => ⟨fun served => ?_, fun unserved => ?_⟩⟩
  · rw [exec_confirmationDeadline running, State.confirmationDeadline_early early]
  · have record : (s.giveUpTarget n).ctx n = c.withoutTarget := (s.giveUpTarget_rewrites n).ctx_self
    rw [exec_confirmationDeadline running, State.confirmationDeadline_served moving elapsed served, record,
      State.giveUpTarget_eq toward inService, State.raise_setCtx, State.setCtx_setCtx]
    rfl
  · rw [exec_confirmationDeadline running, State.confirmationDeadline_unserved moving elapsed unserved,
      State.giveUpTarget_eq toward inService, State.raise_orphan, State.orphan_setCtx,
      Context.enterOrphan_unserved (c := c.withoutTarget) unserved]
    rfl

end Sys2Proof.Machine
end

section
/-! The requests about zone windows, vessel windows and slot plans (R119 to R121, R125, R139): which bytes they accept, what
the checks of a zone window mean, and each request as one equation. -/

namespace Sys2Proof.Machine

open Sys2Proof

/-! ## The operands (R119, R125, R139, R176) -/

theorem zoneOf_of_toNat {b : Byte} {w : Fin 8} (h : b.toNat = w.val) : zoneOf b = some w := by
  simp [zoneOf, h]

theorem zoneOf_eq_none {b : Byte} (h : 7 < b.toNat) : zoneOf b = none := dif_neg (by omega)

theorem vesselOf_of_toNat {b : Byte} {w : Fin 4} (h : b.toNat = w.val) : vesselOf b = some w := by
  simp [vesselOf, h]

theorem vesselOf_eq_none {b : Byte} (h : 3 < b.toNat) : vesselOf b = none := dif_neg (by omega)

theorem headOf_of_toNat {b : Byte} {h : HeadNum} (same : b.toNat = h.val) : headOf b = some h := by
  simp [headOf, same]

theorem headChoiceOf_eq_none {b : Byte} (h : 15 < b.toNat) (named : b ≠ 0xFF) : headChoiceOf b = none := by
  rw [headChoiceOf, if_neg named, headOf_eq_none h, Option.map_none]

theorem markOf_mark (m : Bool) : markOf (if m then 1 else 0) = some m := by cases m <;> rfl

theorem markOf_eq_none {b : Byte} (h : 1 < b.toNat) : markOf b = none := by
  unfold markOf
  split
  · omega
  · omega
  · rfl

/-! ## The checks of a zone window (R119) -/

/-- R119 check 1: the contents that the bytes of a request name. -/
theorem zoneContents_eq_some {f : ZoneSetFields} {z : ZoneWindow} (size : f.sizeCode.toNat = z.sizeCode.val)
    (mark : markOf f.enabled = some z.enabled) (base : f.base = z.base)
    (heads : ∀ q : Fin 4, headChoiceOf f.quarters[q] = some z.quarters[q]) : zoneContents f = some z := by
  have q0 : headChoiceOf f.quarters[0] = some z.quarters[0] := heads 0
  have q1 : headChoiceOf f.quarters[1] = some z.quarters[1] := heads 1
  have q2 : headChoiceOf f.quarters[2] = some z.quarters[2] := heads 2
  have q3 : headChoiceOf f.quarters[3] = some z.quarters[3] := heads 3
  have quarters : #v[z.quarters[0], z.quarters[1], z.quarters[2], z.quarters[3]] = z.quarters := by
    ext i hi
    match i, hi with
    | 0, _ | 1, _ | 2, _ | 3, _ => rfl
  simp [zoneContents, mark, q0, q1, q2, q3, quarters, size, base]

/-- R119 check 1: a byte that names nothing leaves the request without contents. -/
theorem zoneContents_eq_none {f : ZoneSetFields}
    (unnamed : 7 < f.sizeCode.toNat ∨ 1 < f.enabled.toNat ∨ ∃ q : Fin 4, headChoiceOf f.quarters[q] = none) :
    zoneContents f = none := by
  unfold zoneContents
  split
  · next mark q0 q1 q2 q3 =>
    rcases unnamed with size | enabled | ⟨q, head⟩
    · exact dif_neg (by omega)
    · exact absurd (mark.symm.trans (markOf_eq_none enabled)) (Option.some_ne_none _)
    · have named : ∀ q : Fin 4, headChoiceOf f.quarters[q] ≠ none := by
        simp [Fin.forall_fin_succ, q0, q1, q2, q3]
      exact absurd head (named q)
  · rfl

theorem ZoneWindow.misaligned_iff (z : ZoneWindow) :
    z.misaligned = true ↔ z.base.toNat % z.size ≠ 0 ∨ 65536 < z.base.toNat + z.size := decide_eq_true_iff

/-- R118: a window covers at least one position. -/
theorem ZoneWindow.size_pos (z : ZoneWindow) : 0 < z.size := Nat.mul_pos (by decide) (Nat.two_pow_pos _)

/-- R119 check 4: the comparison of the ends says that the windows share a position, the higher of the two bases. -/
theorem ZoneWindow.overlaps_iff (x y : ZoneWindow) :
    x.overlaps y = true ↔ ∃ p, x.holds p = true ∧ y.holds p = true := by
  have hx := x.size_pos
  have hy := y.size_pos
  simp only [ZoneWindow.overlaps, ZoneWindow.holds, decide_eq_true_iff]
  constructor
  · intro ends
    exact ⟨max x.base.toNat y.base.toNat, by omega, by omega⟩
  · rintro ⟨p, inX, inY⟩
    omega

theorem State.zoneClash_iff (s : State) (w : Fin 8) (z : ZoneWindow) :
    s.zoneClash w z = true ↔
      ∃ v, v ≠ w ∧ (s.zone v).enabled = true ∧ ∃ p, z.holds p = true ∧ (s.zone v).holds p = true := by
  simp only [State.zoneClash, List.any_eq_true, List.mem_finRange, true_and, Bool.and_eq_true, decide_eq_true_iff,
    ZoneWindow.overlaps_iff, and_assoc]

/-! ## The requests -/

/-- A request on an IDLE channel whose owner does nothing but answer. -/
theorem State.takeRequest_answer {α : Type} {s : State} {ch : ChanNum} (ready : s.Ready ch) {code : Byte} {f : α}
    {run : α → State → State} {r : Reply}
    (answers : run f (s.setChanState ch .busy) = (s.setChanState ch .busy).finish ch code r) :
    s.takeRequest ch code (.fields f) run = s.answer ch code r := by
  rw [State.takeRequest_ready ready, answers, State.busy_finish ready.2]

/-- R119 check 1, on a channel that is IDLE. -/
theorem exec_zoneSet_unnamed {s : State} {ch : ChanNum} (ready : s.Ready ch) {f : ZoneSetFields}
    (unnamed : zoneOf f.window = none ∨ zoneContents f = none) :
    exec (.zoneSet ch (.fields f)) s = .next (s.answer ch zoneSetCode .badField) := by
  refine congrArg Host.Outcome.next (State.takeRequest_answer ready ?_)
  rw [State.zoneSet]
  split
  · next window contents => simp [window, contents] at unnamed
  · rfl

/-- R119, R120: the later checks, when every byte names something, and the window replaced. -/
theorem exec_zoneSet_named {s : State} {ch : ChanNum} (ready : s.Ready ch) {f : ZoneSetFields} {w : Fin 8}
    {z : ZoneWindow} (window : zoneOf f.window = some w) (contents : zoneContents f = some z) :
    exec (.zoneSet ch (.fields f)) s = .next (
      if z.enabled ∧ z.misaligned then s.answer ch zoneSetCode .align
      else if z.enabled ∧ s.zoneClash w z then s.answer ch zoneSetCode .overlap
      else { s with zones := s.zones.set w z }.answer ch zoneSetCode .done) := by
  have stored : ((s.setChanState ch .busy).setZone w z).finish ch zoneSetCode .done =
      { s with zones := s.zones.set w z }.answer ch zoneSetCode .done :=
    State.finish_of_busy (t := (s.setChanState ch .busy).setZone w z) ready.2 rfl ..
  refine congrArg Host.Outcome.next ((State.takeRequest_ready ready ..).trans ?_)
  simp only [State.zoneSet, window, contents, State.busy_finish ready.2, stored]
  rfl

/-- R121. -/
theorem exec_zoneRead {s : State} {ch : ChanNum} (ready : s.Ready ch) (b : Byte) :
    exec (.zoneRead ch (.fields b)) s =
      .next (s.answer ch zoneReadCode ((zoneOf b).elim .badField fun w => .recordZone w (s.zone w))) := by
  refine congrArg Host.Outcome.next (State.takeRequest_answer ready ?_)
  rw [State.zoneRead]
  cases zoneOf b <;> rfl

/-- R125: a window number or a mark that names nothing. -/
theorem exec_vesselSet_unnamed {s : State} {ch : ChanNum} (ready : s.Ready ch) {f : VesselSetFields}
    (unnamed : vesselOf f.window = none ∨ markOf f.enabled = none) :
    exec (.vesselSet ch (.fields f)) s = .next (s.answer ch vesselSetCode .badField) := by
  refine congrArg Host.Outcome.next (State.takeRequest_answer ready ?_)
  rw [State.vesselSet]
  split
  · next window mark => simp [window, mark] at unnamed
  · rfl

/-- R125: the length is clamped and the window replaced. -/
theorem exec_vesselSet_named {s : State} {ch : ChanNum} (ready : s.Ready ch) {f : VesselSetFields} {w : Fin 4}
    {enabled : Bool} (window : vesselOf f.window = some w) (mark : markOf f.enabled = some enabled) :
    exec (.vesselSet ch (.fields f)) s = .next (
      { s with vessels := s.vessels.set w ⟨enabled, f.start, clamp 1 65535 f.length.toNat⟩ }.answer ch vesselSetCode
        (.doneValue (clamp 1 65535 f.length.toNat))) := by
  refine congrArg Host.Outcome.next ((State.takeRequest_ready ready ..).trans ?_)
  simp only [State.vesselSet, window, mark]
  exact State.finish_of_busy (t := (s.setChanState ch .busy).setVessel w _) ready.2 rfl ..

/-- R125. -/
theorem exec_vesselRead {s : State} {ch : ChanNum} (ready : s.Ready ch) (b : Byte) :
    exec (.vesselRead ch (.fields b)) s =
      .next (s.answer ch vesselReadCode ((vesselOf b).elim .badField fun w => .recordVessel w (s.vessel w))) := by
  refine congrArg Host.Outcome.next (State.takeRequest_answer ready ?_)
  rw [State.vesselRead]
  cases vesselOf b <;> rfl

/-- R139. -/
theorem exec_planRead {s : State} {ch : ChanNum} (ready : s.Ready ch) (b : Byte) :
    exec (.planRead ch (.fields b)) s =
      .next (s.answer ch planReadCode ((headOf b).elim .badField fun h => .recordPlan h (s.planItems h))) := by
  refine congrArg Host.Outcome.next (State.takeRequest_answer ready ?_)
  rw [State.planRead]
  cases headOf b <;> rfl

/-! ## The statements -/

/-- Settles O47: check 1 by the byte that names nothing; then a window that is not enabled; then the later checks of an
enabled one. -/
theorem zoneWindowsAreChecked : Obligations.ZoneWindowsAreChecked := by
  intro ch f s ready answers
  refine ⟨fun unnamed => exec_zoneSet_unnamed ready ?_, fun w z window size mark base heads => ?_⟩
  · rcases unnamed with window | size | enabled | ⟨q, high, named⟩
    · exact .inl (zoneOf_eq_none window)
    · exact .inr (zoneContents_eq_none (.inl size))
    · exact .inr (zoneContents_eq_none (.inr (.inl enabled)))
    · exact .inr (zoneContents_eq_none (.inr (.inr ⟨q, headChoiceOf_eq_none high named⟩)))
  · have checked := exec_zoneSet_named ready (zoneOf_of_toNat window)
      (zoneContents_eq_some size (mark ▸ markOf_mark _) base heads)
    intro span clash stored
    have misaligned : z.misaligned = true ↔ z.base.toNat % span ≠ 0 ∨ 65536 < z.base.toNat + span := z.misaligned_iff
    have clashes : s.zoneClash w z = true ↔ clash := s.zoneClash_iff w z
    refine ⟨fun closed => ?_, fun enabled => ⟨fun crooked => ?_, fun aligned fits => ?_⟩⟩
    · have shut := Bool.eq_false_iff.1 closed
      exact checked.trans (by rw [if_neg fun h => shut h.1, if_neg fun h => shut h.1]; rfl)
    · exact checked.trans (by rw [if_pos ⟨enabled, misaligned.2 crooked⟩]; rfl)
    · have straight : ¬ z.misaligned = true := by rw [misaligned]; omega
      rw [if_neg fun h => straight h.2] at checked
      refine ⟨fun shares => checked.trans ?_, fun apart => checked.trans ?_⟩
      · rw [if_pos ⟨enabled, clashes.2 shares⟩]; rfl
      · rw [if_neg fun h => apart (clashes.1 h.2)]; rfl

/-- Settles O48: each read by whether its byte names something, then VESSEL_SET. -/
theorem windowsAndPlansAreRead : Obligations.WindowsAndPlansAreRead := by
  refine ⟨fun ch b s ready => ?_, fun ch f s ready => ⟨fun unnamed => ?_, fun w enabled window mark => ?_⟩⟩
  · rw [exec_zoneRead ready, exec_vesselRead ready, exec_planRead ready]
    refine ⟨fun unnamed => ?_, fun w named => ?_, fun unnamed => ?_, fun w named => ?_, fun unnamed => ?_,
      fun h named => ?_⟩
    · rw [zoneOf_eq_none unnamed]; rfl
    · rw [zoneOf_of_toNat named]; rfl
    · rw [vesselOf_eq_none unnamed]; rfl
    · rw [vesselOf_of_toNat named]; rfl
    · rw [headOf_eq_none unnamed]; rfl
    · rw [headOf_of_toNat named]; rfl
  · exact exec_vesselSet_unnamed ready (unnamed.imp vesselOf_eq_none markOf_eq_none)
  · exact exec_vesselSet_named ready (vesselOf_of_toNat window) (mark ▸ markOf_mark _)

end Sys2Proof.Machine
end

section
/-! The intake of a report and the due list (R142 to R151): each indicator's test, the order of two due times, what an
insertion keeps, and a new report as one equation. -/

namespace Sys2Proof.Machine

open Sys2Proof

/-! ## The tests of the indicators (R146 to R148) -/

theorem loadWarm_iff (t sp : Int) (band : Nat) (old : Bool) :
    loadWarm (some t) (some sp) band old = true ↔ sp + band < t := decide_eq_true_iff

theorem loadCold_iff (t sp : Int) (band : Nat) (old : Bool) :
    loadCold (some t) (some sp) band old = true ↔ t < sp - band := decide_eq_true_iff

/-- R146: WARM and COLD are left as they were when the supply or the setpoint is absent. -/
theorem loads_of_absent {supply setpoint : Option Int} (absent : ¬ (supply ≠ none ∧ setpoint ≠ none)) (band : Nat)
    (warm cold : Bool) :
    loadWarm supply setpoint band warm = warm ∧ loadCold supply setpoint band cold = cold := by
  cases supply with
  | none => exact ⟨rfl, rfl⟩
  | some t =>
    cases setpoint with
    | none => exact ⟨rfl, rfl⟩
    | some sp => exact absurd ⟨Option.some_ne_none t, Option.some_ne_none sp⟩ absent

theorem loadRising_iff (previous supply : Option Int) (rise : Nat) :
    loadRising previous supply rise = true ↔
      ∃ t u : Int, previous = some t ∧ supply = some u ∧ (rise : Int) ≤ u - t := by
  cases previous with
  | none => simp [loadRising]
  | some t => cases supply <;> simp [loadRising]

theorem loadFault_iff (f : FaultSet) :
    loadFault f = true ↔ f.compressor = true ∨ f.sensor = true ∨ f.powerOff = true := by
  simp [loadFault, or_assoc]

/-- R149. -/
theorem Indicators.newCondition_iff (old new : Indicators) :
    old.newCondition new = true ↔
      old.warm = false ∧ new.warm = true ∨ old.cold = false ∧ new.cold = true ∨ old.fault = false ∧ new.fault = true := by
  simp [Indicators.newCondition, or_assoc]

/-- R151. -/
theorem reschedules_iff (k : ReportKind) : reschedules k = true ↔ k ≠ .alarm := by cases k <;> decide

/-! ## The order of the due list (R150, R169) -/

theorem State.dueBefore_iff {s : State} {a b : CtxNum} {x y : Time} (ha : (s.ctx a).due = some x)
    (hb : (s.ctx b).due = some y) : s.dueBefore a b = true ↔ earlier x y = true ∨ x = y ∧ a < b := by
  simp [State.dueBefore, ha, hb]

/-- Within half the clock's range of `base`, the times stand in the order of their distances from it. -/
theorem earlier_iff_of_near {x y base : Time} (hx : (x - base).toNat < 2 ^ 31) (hy : (y - base).toNat < 2 ^ 31) :
    earlier x y = true ↔ (x - base).toNat < (y - base).toNat := by
  rw [earlier, decide_eq_true_iff]
  bv_omega

/-- A due time within half the clock's range after `base`. -/
def State.DueNear (s : State) (base : Time) (m : CtxNum) : Prop :=
  ∃ d, (s.ctx m).due = some d ∧ (d - base).toNat < 2 ^ 31

/-- The distance of a due time from `base`, by which near contexts are ordered. -/
def State.dueOffset (s : State) (base : Time) (m : CtxNum) : Nat := (((s.ctx m).due.getD base) - base).toNat

theorem State.dueBefore_iff_of_near {s : State} {base : Time} {a b : CtxNum} (ha : s.DueNear base a)
    (hb : s.DueNear base b) :
    s.dueBefore a b = true ↔
      s.dueOffset base a < s.dueOffset base b ∨ s.dueOffset base a = s.dueOffset base b ∧ a < b := by
  obtain ⟨x, hx, nearX⟩ := ha
  obtain ⟨y, hy, nearY⟩ := hb
  rw [State.dueBefore_iff hx hy, earlier_iff_of_near nearX nearY, State.dueOffset, State.dueOffset, hx, hy,
    Option.getD_some, Option.getD_some, BitVec.toNat_inj, BitVec.sub_left_inj]

theorem State.dueBefore_trans {s : State} {base : Time} {a b c : CtxNum} (ha : s.DueNear base a) (hb : s.DueNear base b)
    (hc : s.DueNear base c) (hab : s.dueBefore a b = true) (hbc : s.dueBefore b c = true) : s.dueBefore a c = true := by
  rw [State.dueBefore_iff_of_near ha hb] at hab
  rw [State.dueBefore_iff_of_near hb hc] at hbc
  rw [State.dueBefore_iff_of_near ha hc]
  rw [Fin.lt_def] at hab hbc ⊢
  omega

theorem State.dueBefore_total {s : State} {base : Time} {a b : CtxNum} (ha : s.DueNear base a) (hb : s.DueNear base b)
    (ne : a ≠ b) (later : ¬ s.dueBefore a b = true) : s.dueBefore b a = true := by
  rw [State.dueBefore_iff_of_near ha hb, Fin.lt_def] at later
  rw [State.dueBefore_iff_of_near hb ha, Fin.lt_def]
  have apart : a.val ≠ b.val := Fin.val_ne_of_ne ne
  omega

/-! ## Placing a context in a list (R150) -/

theorem insertDue_perm (before : CtxNum → CtxNum → Bool) (n : CtxNum) (l : List CtxNum) :
    (insertDue before n l).Perm (n :: l) := by
  induction l with
  | nil => exact .refl _
  | cons m l ih =>
    unfold insertDue
    split
    · exact .refl _
    · exact (ih.cons m).trans (.swap n m l)

/-- What comes before the first item comes before all of them, and what does not is after it. -/
theorem insertDue_pairwise {before : CtxNum → CtxNum → Bool} {n : CtxNum} {l : List CtxNum}
    (total : ∀ m ∈ l, ¬ before n m = true → before m n = true)
    (trans : ∀ a ∈ l, ∀ b ∈ l, before n a = true → before a b = true → before n b = true)
    (order : l.Pairwise fun a b => before a b = true) :
    (insertDue before n l).Pairwise fun a b => before a b = true := by
  induction l with
  | nil => exact List.pairwise_singleton ..
  | cons m l ih =>
    obtain ⟨first, rest⟩ := List.pairwise_cons.1 order
    unfold insertDue
    split
    · next h =>
      refine List.pairwise_cons.2 ⟨fun b hb => ?_, order⟩
      obtain rfl | hb := List.mem_cons.1 hb
      · exact h
      · exact trans m List.mem_cons_self b (List.mem_cons_of_mem m hb) h (first b hb)
    · next h =>
      have inner := ih (fun a ha => total a (List.mem_cons_of_mem m ha))
        (fun a ha b hb => trans a (List.mem_cons_of_mem m ha) b (List.mem_cons_of_mem m hb)) rest
      refine List.pairwise_cons.2 ⟨fun b hb => ?_, inner⟩
      obtain rfl | hb := (mem_insertDue before n b l).1 hb
      · exact total m List.mem_cons_self h
      · exact first b hb

/-! ## A new report (R143, R144, R151) -/

theorem ReeferPart.take_eq (r : ReeferPart) (p : ReportPayload) (now : Time) :
    r.take p now = { r with
      lastSeq := some p.sequence, lastReport := some now, supply := p.supply.map saturate, ret := p.ret.map saturate
      setpoint := if p.setpoint.isSome then p.setpoint.map saturate else r.setpoint
      faults := p.faults, kind := some p.kind
      ind := r.ind.after p.kind r.supply (p.supply.map saturate)
        (if p.setpoint.isSome then p.setpoint.map saturate else r.setpoint) r.band r.rise p.faults } := by
  unfold ReeferPart.take
  cases p.setpoint <;> rfl

theorem State.setDue_setCtx (s : State) (n : CtxNum) (c : Context) (t : Time) :
    (s.setCtx n c).setDue n t = s.placedInDueList n (c.withDue (some t)) := by
  have own : (s.setCtx n c).ctx n = c := by rw [State.setCtx_ctx, if_pos rfl]
  have twice : (s.setCtx n c).setCtx n (c.withDue (some t)) = s.setCtx n (c.withDue (some t)) := by
    simp [State.setCtx]
  unfold State.setDue
  rw [own, twice]
  rfl

theorem State.setDue_raise (s : State) (n : CtxNum) (t : Time) (e : EventClass) (x : Subject) :
    (s.raise e x).setDue n t = (s.setDue n t).raise e x := rfl

/-- R144, R151: the state in which a new report of a reefer is stored and its due time moved. -/
def State.withReport (s : State) (n : CtxNum) (r : ReeferPart) (p : ReportPayload) : State :=
  let c : Context := { s.ctx n with reefer := some (r.take p s.clock) }
  if reschedules p.kind ∧ r.due.isSome then s.placedInDueList n (c.withDue (some (dueFrom s.clock r.period)))
  else s.setCtx n c

/-- R77: only a REEFER takes a report in. -/
theorem State.intake_of_no_part {s : State} {n : CtxNum} {p : ReportPayload} (hr : (s.ctx n).reefer = none) :
    s.intake n p = s := by
  simp only [State.intake, hr]

theorem State.intake_of_duplicate {s : State} {n : CtxNum} {r : ReeferPart} (hr : (s.ctx n).reefer = some r)
    {p : ReportPayload} (same : r.lastSeq = some p.sequence) : s.intake n p = s := by
  simp only [State.intake, hr, if_pos same]

/-- R143, R149, R151: a new report in one equation. The due time is moved after the event is raised, and the two do not
meet. -/
theorem State.intake_of_new {s : State} {n : CtxNum} {r : ReeferPart} (hr : (s.ctx n).reefer = some r)
    {p : ReportPayload} (new : r.lastSeq ≠ some p.sequence) :
    s.intake n p = if r.ind.newCondition (r.take p s.clock).ind then
        (s.withReport n r p).raise .reeferCondition (.context n)
      else s.withReport n r p := by
  simp only [State.intake, hr, if_neg new, State.withReport]
  split
  · split
    · rw [State.setDue_raise, State.setDue_setCtx]; rfl
    · rw [State.setDue_setCtx]; rfl
  · rfl

/-! ## The statements -/

/-- Settles O44: no reefer part, a duplicate, and a new report, stored by whether it moves the due time. -/
theorem reportsAreTakenIn : Obligations.ReportsAreTakenIn := by
  intro s n p
  refine ⟨State.intake_of_no_part, fun r hr => ⟨State.intake_of_duplicate hr, fun new => ?_⟩⟩
  intro limit supply setpoint ind moves c stored condition
  have marks : (r.take p s.clock).ind = ind := by rw [ReeferPart.take_eq]; rfl
  have moved : (reschedules p.kind = true ∧ r.due.isSome = true) ↔ moves := by
    rw [reschedules_iff, Option.isSome_iff_ne_none]
  have kept : s.withReport n r p = stored := by
    rw [State.withReport, ReeferPart.take_eq]
    by_cases h : moves
    · simp only [moved, stored, c, if_pos h]
      rfl
    · simp only [moved, stored, c, if_neg h]
      rfl
  have taken := State.intake_of_new hr new
  have raises : r.ind.newCondition ind = true ↔ condition := Indicators.newCondition_iff _ _
  rw [marks, kept] at taken
  exact ⟨fun yes => taken.trans (if_pos (raises.2 yes)), fun no => taken.trans (if_neg fun h => no (raises.1 h))⟩

/-- Settles O45, the clauses in their order, each by the test of the kinds it names. -/
theorem indicatorsFollowTheKind : Obligations.IndicatorsFollowTheKind := by
  intro old kind previous supply setpoint band rise faults new bothKnown
  refine ⟨?loaded, ?defrost, ?power, ?rising, ?alarm, ?cleared, ?faultKept, ?fault⟩
  case loaded =>
    rintro (rfl | rfl)
    all_goals
      refine ⟨fun absent => loads_of_absent absent band old.warm old.cold, ?_⟩
      rintro t sp rfl rfl
      exact ⟨loadWarm_iff t sp band old.warm, loadCold_iff t sp band old.cold⟩
  case defrost =>
    rintro rfl
    refine ⟨rfl, fun absent => (loads_of_absent absent band old.warm old.cold).2, ?_⟩
    rintro t sp rfl rfl
    exact loadCold_iff t sp band old.cold
  case power => rintro rfl; exact ⟨rfl, rfl⟩
  case rising => rintro rfl; exact loadRising_iff previous supply rise
  case alarm => rintro rfl; rfl
  case cleared => rintro (rfl | rfl) <;> rfl
  case faultKept => rintro rfl; rfl
  case fault =>
    intro other
    cases kind with
    | defrost => exact absurd rfl other
    | periodic | alarm | power => exact loadFault_iff faults

/-- Settles O46: near one base, the order of the list is that of the distances from it, which is total and transitive. -/
theorem dueListStaysInOrder : Obligations.DueListStaysInOrder := by
  refine ⟨fun s a b x y => State.dueBefore_iff, fun s n l base fresh order near => ?_⟩
  have own : s.DueNear base n := near n List.mem_cons_self
  have listed (m : CtxNum) (h : m ∈ l) : s.DueNear base m := near m (List.mem_cons_of_mem n h)
  refine ⟨insertDue_pairwise (fun m h => ?_) (fun a ha b hb => ?_) order, insertDue_perm _ n l⟩
  · exact State.dueBefore_total own (listed m h) fun same => fresh (same ▸ h)
  · exact State.dueBefore_trans own (listed a ha) (listed b hb)

end Sys2Proof.Machine
end

section
/-! The records outside the contexts (parameters, windows, events, heads) as the operations of the part see them: the
operations that leave these five fields alone. -/

namespace Sys2Proof.Machine

open Sys2Proof

/-! ## The quay of a state -/

/-- What the part keeps beside the contexts, their plans and the channels: the parameters (R163), the zone windows (R118),
the vessel windows (R124), the event records (R165) and the head records (R44). -/
structure Quay where
  params  : Params
  zones   : Vector ZoneWindow 8
  vessels : Vector VesselWindow 4
  events  : Vector EventRec 9
  heads   : Vector Head 16

def State.quay (s : State) : Quay := ⟨s.params, s.zones, s.vessels, s.events, s.heads⟩

/-- Two states have one quay when the five fields agree. -/
theorem State.quay_eq_iff (s t : State) :
    t.quay = s.quay ↔ t.params = s.params ∧ t.zones = s.zones ∧ t.vessels = s.vessels ∧ t.events = s.events ∧
      t.heads = s.heads := by
  simp [State.quay]

/-! ## Operations that leave the quay alone -/

@[simp] theorem State.setCtx_quay (s : State) (n : CtxNum) (c : Context) : (s.setCtx n c).quay = s.quay := rfl
@[simp] theorem State.setChan_quay (s : State) (ch : ChanNum) (c : Channel) : (s.setChan ch c).quay = s.quay := rfl
@[simp] theorem State.setChanState_quay (s : State) (ch : ChanNum) (st : ChanState) :
    (s.setChanState ch st).quay = s.quay := rfl
@[simp] theorem State.setWait_quay (s : State) (n : CtxNum) (l : List ChanNum) : (s.setWait n l).quay = s.quay := rfl
@[simp] theorem State.setPlan_quay (s : State) (h : HeadNum) (p : Plan) : (s.setPlan h p).quay = s.quay := rfl
@[simp] theorem State.answer_quay (s : State) (ch : ChanNum) (echo : Byte) (r : Reply) :
    (s.answer ch echo r).quay = s.quay := rfl
@[simp] theorem State.finish_quay (s : State) (ch : ChanNum) (echo : Byte) (r : Reply) :
    (s.finish ch echo r).quay = s.quay := rfl
@[simp] theorem State.setDue_quay (s : State) (n : CtxNum) (t : Time) : (s.setDue n t).quay = s.quay := rfl
@[simp] theorem State.grantHold_quay (s : State) (n : CtxNum) (ch : ChanNum) : (s.grantHold n ch).quay = s.quay := rfl
@[simp] theorem State.dropHold_quay (s : State) (n : CtxNum) (ch : ChanNum) : (s.dropHold n ch).quay = s.quay := rfl
@[simp] theorem State.unpark_quay (s : State) (ch : ChanNum) : (s.unpark ch).quay = s.quay := rfl
@[simp] theorem State.sendHead_quay (s : State) (h : HeadNum) (x : HeadMsg) : (s.sendHead h x).quay = s.quay := by
  simp [State.quay]
@[simp] theorem State.setSlots_quay (s : State) (h : HeadNum) (l : List SlotNum) (u : SlotUse) :
    (s.setSlots h l u).quay = s.quay := by
  simp [State.quay]
@[simp] theorem State.reserveActive_quay (s : State) (h : HeadNum) (n : CtxNum) (k : Nat) :
    (s.reserveActive h n k).quay = s.quay := State.setSlots_quay ..
@[simp] theorem State.reservePending_quay (s : State) (h : HeadNum) (n : CtxNum) (k : Nat) :
    (s.reservePending h n k).quay = s.quay := State.setSlots_quay ..
@[simp] theorem State.freeActive_quay (s : State) (h : HeadNum) (n : CtxNum) : (s.freeActive h n).quay = s.quay :=
  State.setSlots_quay ..
@[simp] theorem State.freePending_quay (s : State) (h : HeadNum) (n : CtxNum) : (s.freePending h n).quay = s.quay :=
  State.setSlots_quay ..
@[simp] theorem State.activatePending_quay (s : State) (h : HeadNum) (n : CtxNum) :
    (s.activatePending h n).quay = s.quay := State.setSlots_quay ..

theorem State.onHead_quay {f : State → HeadNum → State} (hf : ∀ s h, (f s h).quay = s.quay) (s : State)
    (h : Option HeadNum) : (s.onHead h f).quay = s.quay := by
  cases h with
  | none => rfl
  | some h => exact hf s h

theorem State.forCrane_quay {f : State → State} (hf : ∀ s, (f s).quay = s.quay) (s : State) (n : CtxNum) :
    (s.forCrane n f).quay = s.quay := by
  unfold State.forCrane
  split
  · exact hf s
  · rfl

/-- A change repeated along a list leaves the quay alone when each change does. -/
theorem State.foldl_quay {α : Type} {f : State → α → State} (hf : ∀ s x, (f s x).quay = s.quay) (l : List α) (s : State) :
    (l.foldl f s).quay = s.quay := by
  induction l generalizing s with
  | nil => rfl
  | cons x l ih => exact (ih _).trans (hf s x)

/-! ## Records, holds and sweeps -/

@[simp] theorem State.handOn_quay (s : State) (n : CtxNum) : (s.handOn n).quay = s.quay := by
  rcases s.handOn_cases n with ⟨-, h⟩ | ⟨ch, rest, -, h⟩ <;> rw [h]
  rfl

@[simp] theorem State.writeProfile_quay (s : State) (n : CtxNum) (a : Applied) : (s.writeProfile n a).quay = s.quay := by
  unfold State.writeProfile
  split
  · rfl
  · dsimp only
    split
    · split <;> rfl
    · rfl

@[simp] theorem State.resizeSlots_quay (s : State) (n : CtxNum) (old new : Nat) :
    (s.resizeSlots n old new).quay = s.quay := by
  unfold State.resizeSlots
  split
  · rfl
  · dsimp only
    split
    · simp
    · split <;> simp

@[simp] theorem State.writeSlotCount_quay (s : State) (n : CtxNum) (a : Applied) :
    (s.writeSlotCount n a).quay = s.quay := by
  unfold State.writeSlotCount
  split <;> simp

@[simp] theorem State.applyFields_quay (s : State) (n : CtxNum) (a : Applied) : (s.applyFields n a).quay = s.quay := by
  simp [State.applyFields]

@[simp] theorem State.findRequest_quay (s : State) (ch : ChanNum) (id : Identity) : (s.findRequest ch id).quay = s.quay := by
  unfold State.findRequest
  split <;> rfl

@[simp] theorem State.readRequest_quay (s : State) (ch : ChanNum) (f : Half) : (s.readRequest ch f).quay = s.quay := by
  unfold State.readRequest
  split
  · rfl
  · split <;> rfl

@[simp] theorem State.updateRequest_quay (s : State) (ch : ChanNum) (f : WriteFields) :
    (s.updateRequest ch f).quay = s.quay := by
  unfold State.updateRequest
  split
  · rfl
  · split
    · rfl
    · split
      · rfl
      · split <;> simp

@[simp] theorem State.fetchRequest_quay (s : State) (ch : ChanNum) (f : Half) : (s.fetchRequest ch f).quay = s.quay := by
  unfold State.fetchRequest
  split
  · rfl
  · split
    · rfl
    · split
      · rfl
      · split <;> rfl

@[simp] theorem State.storeRequest_quay (s : State) (ch : ChanNum) (f : WriteFields) :
    (s.storeRequest ch f).quay = s.quay := by
  unfold State.storeRequest
  split
  · rfl
  · split
    · rfl
    · split <;> simp

@[simp] theorem State.releaseRequest_quay (s : State) (ch : ChanNum) (f : Half) :
    (s.releaseRequest ch f).quay = s.quay := by
  unfold State.releaseRequest
  split
  · rfl
  · split <;> simp

@[simp] theorem State.leaveWait_quay (s : State) (ch : ChanNum) (n : CtxNum) (r : Reply) :
    (s.leaveWait ch n r).quay = s.quay := rfl

@[simp] theorem State.parkDeadline_quay (s : State) (ch : ChanNum) : (s.parkDeadline ch).quay = s.quay := by
  unfold State.parkDeadline
  split
  · split <;> rfl
  · rfl

@[simp] theorem State.cancelRequest_quay (s : State) (ch : ChanNum) (b : Body Unit) :
    (s.cancelRequest ch b).quay = s.quay := by
  unfold State.cancelRequest
  split
  case h_4 => split <;> rfl
  all_goals rfl

@[simp] theorem State.answerBlock_quay (s : State) (ch : ChanNum) (code : Byte) (w : Sweep) :
    (s.answerBlock ch code w).quay = s.quay := by
  unfold State.answerBlock
  dsimp only
  split <;> rfl

@[simp] theorem State.sweepRequest_quay (s : State) (ch : ChanNum) (f : SweepFields) :
    (s.sweepRequest ch f).quay = s.quay := by
  unfold State.sweepRequest
  split <;> simp

@[simp] theorem State.continueRequest_quay (s : State) (ch : ChanNum) : (s.continueRequest ch).quay = s.quay := by
  unfold State.continueRequest
  split <;> simp

@[simp] theorem State.stopRequest_quay (s : State) (ch : ChanNum) : (s.stopRequest ch).quay = s.quay := rfl

@[simp] theorem State.idleDeadline_quay (s : State) (ch : ChanNum) : (s.idleDeadline ch).quay = s.quay := by
  unfold State.idleDeadline
  split <;> rfl

/-! ## Read-outs, and what is no request -/

@[simp] theorem State.headRead_quay (s : State) (ch : ChanNum) (f : Byte) : (s.headRead ch f).quay = s.quay := by
  unfold State.headRead
  split <;> rfl

@[simp] theorem State.zoneRead_quay (s : State) (ch : ChanNum) (f : Byte) : (s.zoneRead ch f).quay = s.quay := by
  unfold State.zoneRead
  split <;> rfl

@[simp] theorem State.vesselRead_quay (s : State) (ch : ChanNum) (f : Byte) : (s.vesselRead ch f).quay = s.quay := by
  unfold State.vesselRead
  split <;> rfl

@[simp] theorem State.planRead_quay (s : State) (ch : ChanNum) (f : Byte) : (s.planRead ch f).quay = s.quay := by
  unfold State.planRead
  split <;> rfl

@[simp] theorem State.paramRead_quay (s : State) (ch : ChanNum) (f : ParamReadFields) :
    (s.paramRead ch f).quay = s.quay := by
  unfold State.paramRead
  split <;> rfl

@[simp] theorem State.answerOpenEcho_quay (s : State) (ch : ChanNum) : (s.answerOpenEcho ch).quay = s.quay := rfl

@[simp] theorem State.tick_quay (s : State) : s.tick.quay = s.quay := rfl

@[simp] theorem State.transmit_quay (s : State) : s.transmit.quay = s.quay := rfl

@[simp] theorem State.cancelParked_quay (s : State) (ch : ChanNum) : (s.cancelParked ch).quay = s.quay := by
  refine State.foldl_quay (fun s c => ?_) _ s
  split <;> rfl

@[simp] theorem State.clearPlans_quay (s : State) : s.clearPlans.quay = s.quay :=
  State.foldl_quay (fun s h => s.sendHead_quay h _) _ s

/-! ## Contacts and handovers -/

@[simp] theorem State.enterActive_quay (s : State) (n : CtxNum) : (s.enterActive n).quay = s.quay := by
  unfold State.enterActive
  dsimp only
  split
  · rfl
  · split <;> rfl
  · rfl
  · rfl

@[simp] theorem State.returnFromSilence_quay (s : State) (n : CtxNum) : (s.returnFromSilence n).quay = s.quay :=
  State.enterActive_quay ..

@[simp] theorem State.qualityUpdate_quay (s : State) (a : HeadNum) (n : CtxNum) (x : Byte) :
    (s.qualityUpdate a n x).quay = s.quay := by
  unfold State.qualityUpdate
  split <;> rfl

@[simp] theorem State.staleDeadline_quay (s : State) (n : CtxNum) (h : HeadNum) :
    (s.staleDeadline n h).quay = s.quay := rfl

@[simp] theorem State.capturePosition_quay (s : State) (n : CtxNum) (p : Option Half) :
    (s.capturePosition n p).quay = s.quay := by
  unfold State.capturePosition
  split <;> rfl

@[simp] theorem State.restartLoss_quay (s : State) (n : CtxNum) : (s.restartLoss n).quay = s.quay := by
  unfold State.restartLoss
  dsimp only
  split <;> rfl

@[simp] theorem State.startHandover_quay (s : State) (n : CtxNum) (serving target : HeadNum) :
    (s.startHandover n serving target).quay = s.quay := by
  unfold State.startHandover
  dsimp only
  rw [State.sendHead_quay, State.forCrane_quay fun s' => s'.reservePending_quay target n _]
  rfl

@[simp] theorem State.evaluate_quay (s : State) (n : CtxNum) : (s.evaluate n).quay = s.quay := by
  unfold State.evaluate
  dsimp only
  split
  · split
    · rfl
    · split
      · exact State.startHandover_quay ..
      · rfl
  · rfl

@[simp] theorem State.evaluateAt_quay (s : State) (a : HeadNum) (n : CtxNum) : (s.evaluateAt a n).quay = s.quay := by
  rcases s.evaluateAt_eq a n with h | h <;> rw [h] <;> simp

@[simp] theorem State.orphan_quay (s : State) (n : CtxNum) : (s.orphan n).quay = s.quay := rfl

/-! ## Records that go (R17, R19) -/

@[simp] theorem State.freeRecord_quay (s : State) (n : CtxNum) : (s.freeRecord n).quay = s.quay := rfl

@[simp] theorem State.dropOwnHold_quay (s : State) (n : CtxNum) (ch : ChanNum) : (s.dropOwnHold n ch).quay = s.quay := by
  unfold State.dropOwnHold
  split <;> rfl

@[simp] theorem State.answerGone_quay (s : State) (n : CtxNum) : (s.answerGone n).quay = s.quay :=
  State.foldl_quay (f := fun s c => (s.answer c fetchCode .gone).unpark c) (fun _ _ => rfl) (s.wait n) s

end Sys2Proof.Machine
end

section
/-! The laws of the records outside the contexts (R44, R119, R120, R124, R163, R165) as the operations of the part keep
them: head records one change at a time, then each operation that touches the quay. -/

namespace Sys2Proof.Machine

open Sys2Proof

/-! ## One head record (R44, R49, R59) -/

/-- R47: a SETTLING head enters STANDBY. -/
theorem Head.Lawful.settled {r : Head} (h : r.Lawful) (settling : r.link = .settling) :
    ({ r with link := .standby, settleAt := none } : Head).Lawful := by
  obtain ⟨silence, settle, surveyEnd, surveyLink, idle, bare, service, ranges⟩ := h
  exact ⟨by simpa [settling] using silence, by simp, surveyEnd, fun _ => .inl rfl, idle, by simp, by simp, ranges⟩

/-- R49: a STANDBY head that is ENABLED and has a floor enters IN_SERVICE. -/
theorem Head.Lawful.entered {r : Head} (h : r.Lawful) (standby : r.link = .standby) (enabled : r.admin = .enabled)
    (floor : r.floor.isSome = true) : ({ r with link := .inService } : Head).Lawful := by
  obtain ⟨silence, settle, surveyEnd, surveyLink, idle, bare, service, ranges⟩ := h
  exact ⟨by simpa [standby] using silence, by simpa [standby] using settle, surveyEnd, fun _ => .inr rfl, idle, by simp,
    fun _ => ⟨floor, enabled⟩, ranges⟩

/-- R51: a head in service leaves it for STANDBY, DISABLED. -/
theorem Head.Lawful.left {r : Head} (h : r.Lawful) (inService : r.link = .inService) :
    ({ r with admin := .disabled, link := .standby } : Head).Lawful := by
  obtain ⟨silence, settle, surveyEnd, surveyLink, idle, bare, service, ranges⟩ := h
  exact ⟨by simpa [inService] using silence, by simpa [inService] using settle, surveyEnd, fun _ => .inl rfl, idle,
    by simp, by simp, ranges⟩

/-- R50: ENABLED puts no condition on a record. -/
theorem Head.Lawful.enabled {r : Head} (h : r.Lawful) : ({ r with admin := .enabled } : Head).Lawful := by
  obtain ⟨silence, settle, surveyEnd, surveyLink, idle, bare, service, ranges⟩ := h
  exact ⟨silence, settle, surveyEnd, surveyLink, idle, bare, fun x => ⟨(service x).1, rfl⟩, ranges⟩

/-- R51: a head out of service may be DISABLED. -/
theorem Head.Lawful.disabled {r : Head} (h : r.Lawful) (out : r.link ≠ .inService) :
    ({ r with admin := .disabled } : Head).Lawful := by
  obtain ⟨silence, settle, surveyEnd, surveyLink, idle, bare, service, ranges⟩ := h
  exact ⟨silence, settle, surveyEnd, surveyLink, idle, bare, fun x => absurd x out, ranges⟩

/-- R45: no law of a head record speaks of its load. -/
theorem Head.Lawful.withLoad {r : Head} (h : r.Lawful) (load : Nat) : ({ r with load := load } : Head).Lawful := h

/-- R53: a capacity in its range is set, with position and side. -/
theorem Head.Lawful.placed {r : Head} (h : r.Lawful) (position : Option Half) (side : Side) {capacity : Nat}
    (lo : 1 ≤ capacity) (hi : capacity ≤ 2048) :
    ({ r with position := position, side := side, capacity := capacity } : Head).Lawful := by
  obtain ⟨silence, settle, surveyEnd, surveyLink, idle, bare, service, floors, idles, sums, -⟩ := h
  exact ⟨silence, settle, surveyEnd, surveyLink, idle, bare, service, floors, idles, sums, lo, hi⟩

/-- R48: link loss takes away the deadlines of the link, the floor and I; a head whose survey does not run. -/
theorem Head.Lawful.lost {r : Head} (h : r.Lawful) (quiet : r.survey ≠ .running) :
    ({ r with link := .absent, silenceAt := none, settleAt := none, floor := none, idle := none,
              resurvey := false } : Head).Lawful := by
  obtain ⟨silence, settle, surveyEnd, surveyLink, idle, bare, service, floors, idles, ranges⟩ := h
  exact ⟨by simp, by simp, surveyEnd, fun x => absurd x quiet, by simp, by simp, by simp, by simp, by simp, ranges⟩

/-- R56: a survey runs on a linked head alone. -/
theorem Head.Lawful.linked {r : Head} (h : r.Lawful) (running : r.survey = .running) :
    r.link = .standby ∨ r.link = .inService := by
  obtain ⟨-, -, -, surveyLink, -⟩ := h
  exact surveyLink running

/-- R58: the mean of samples of one byte is at most 255. -/
theorem Head.Lawful.mean_le {r : Head} (h : r.Lawful) : r.sampleSum / r.samples ≤ 255 := by
  obtain ⟨-, -, -, -, -, -, -, -, -, sums, -⟩ := h
  exact Nat.div_le_of_le_mul (Nat.mul_comm .. ▸ sums)

/-- R58: a survey that has ended runs no more and has no end time. -/
theorem Head.Lawful.ended {r : Head} (h : r.Lawful) (outcome : SurveyOutcome) :
    ({ r with survey := .idle, surveyEnd := none, outcome := outcome } : Head).Lawful := by
  obtain ⟨silence, settle, surveyEnd, surveyLink, idle, bare, service, ranges⟩ := h
  exact ⟨silence, settle, by simp, by simp, idle, bare, service, ranges⟩

/-- R58: a survey that ends on a linked head with a mean sample of one byte sets the floor and I. -/
theorem Head.Lawful.surveyed {r : Head} (h : r.Lawful) (linked : r.link = .standby ∨ r.link = .inService) {floor : Nat}
    (small : floor ≤ 255) :
    ({ r with floor := some floor, idle := some (8 * (floor : Int)), resurvey := false } : Head).Lawful := by
  obtain ⟨silence, settle, surveyEnd, surveyLink, idle, bare, service, floors, idles, ranges⟩ := h
  refine ⟨silence, settle, surveyEnd, surveyLink, by simp, fun x => ?_, fun x => ⟨rfl, (service x).2⟩, fun f hf => ?_,
    fun i hi => ?_, ranges⟩
  · rcases linked with l | l <;> simp [l] at x
  · cases hf; exact small
  · cases hi; omega

/-- R55: a survey starts on a linked head. -/
theorem Head.Lawful.surveying {r : Head} (h : r.Lawful) (linked : r.link = .standby ∨ r.link = .inService) (finish : Time) :
    ({ r with survey := .running, outcome := .none, samples := 0, sampleSum := 0, surveyEnd := some finish } : Head).Lawful := by
  obtain ⟨silence, settle, surveyEnd, surveyLink, idle, bare, service, floors, idles, sums, capacity⟩ := h
  exact ⟨silence, settle, by simp, fun _ => linked, idle, bare, service, floors, idles, Nat.le_refl _, capacity⟩

/-- R57: a sample of one byte is added to a survey. -/
theorem Head.Lawful.sampled {r : Head} (h : r.Lawful) (x : Byte) :
    ({ r with samples := r.samples + 1, sampleSum := r.sampleSum + x.toNat } : Head).Lawful := by
  obtain ⟨silence, settle, surveyEnd, surveyLink, idle, bare, service, floors, idles, sums, capacity⟩ := h
  have small := x.isLt
  exact ⟨silence, settle, surveyEnd, surveyLink, idle, bare, service, floors, idles, by dsimp only; omega, capacity⟩

/-- R59: I stays within 0 to 2040 under a sample of one byte. -/
theorem idleStep_range {i : Int} (lo : 0 ≤ i) (hi : i ≤ 2040) (x : Byte) :
    0 ≤ idleStep i x.toNat ∧ idleStep i x.toNat ≤ 2040 := by
  have small := x.isLt
  unfold idleStep
  rcases Int.le_total 0 (8 * (x.toNat : Int) - i) with rising | falling
  · obtain ⟨a, b⟩ := tdiv_of_rising (d := 16) (by decide) rising
    omega
  · obtain ⟨a, b⟩ := tdiv_of_falling (d := 16) (by decide) falling
    omega

theorem Head.Lawful.idle_range {r : Head} (h : r.Lawful) {i : Int} (had : r.idle = some i) : 0 ≤ i ∧ i ≤ 2040 := by
  obtain ⟨-, -, -, -, -, -, -, -, idles, -⟩ := h
  exact idles i had

/-- R59, R60: I moves within its range, and re-survey wanted may be set. -/
theorem Head.Lawful.drifting {r : Head} (h : r.Lawful) {old new : Int} (had : r.idle = some old) (lo : 0 ≤ new)
    (hi : new ≤ 2040) (wanted : Bool) : ({ r with idle := some new, resurvey := wanted } : Head).Lawful := by
  obtain ⟨silence, settle, surveyEnd, surveyLink, idle, bare, service, floors, idles, ranges⟩ := h
  refine ⟨silence, settle, surveyEnd, surveyLink, by simpa [had] using idle, bare, service, floors, fun i hi' => ?_, ranges⟩
  cases hi'
  exact ⟨lo, hi⟩

theorem Head.reset_lawful : Head.reset.Lawful := by
  simp [Head.Lawful, Head.reset]

end Sys2Proof.Machine
end

section
/-! What the operations of the part keep of the laws of the quay (R44, R119, R120, R124, R163, R165). -/

namespace Sys2Proof.Machine

open Sys2Proof

/-! ## Laws kept -/

/-- Every law of the quay that one state obeys, the other obeys. -/
structure State.KeepsQuay (s t : State) : Prop where
  params  : s.ParamsInRange → t.ParamsInRange
  zones   : s.ZonesLawful → t.ZonesLawful
  vessels : s.VesselsLawful → t.VesselsLawful
  events  : s.EventsLawful → t.EventsLawful
  heads   : s.HeadsLawful → t.HeadsLawful

theorem State.KeepsQuay.trans {s t u : State} (h : s.KeepsQuay t) (k : t.KeepsQuay u) : s.KeepsQuay u :=
  ⟨k.params ∘ h.params, k.zones ∘ h.zones, k.vessels ∘ h.vessels, k.events ∘ h.events, k.heads ∘ h.heads⟩

/-- The laws speak of the quay alone. -/
theorem State.KeepsQuay.of_eq {s t : State} (h : t.quay = s.quay) : s.KeepsQuay t := by
  obtain ⟨params, zones, vessels, events, heads⟩ := (s.quay_eq_iff t).1 h
  constructor
  · simp only [State.ParamsInRange, params, imp_self]
  · simp only [State.ZonesLawful, State.zone, zones, imp_self]
  · simp only [State.VesselsLawful, State.vessel, vessels, imp_self]
  · simp only [State.EventsLawful, State.eventRec, events, imp_self]
  · simp only [State.HeadsLawful, State.headRec, heads, imp_self]

theorem State.KeepsQuay.refl (s : State) : s.KeepsQuay s := .of_eq rfl

/-- The state reached may be exchanged for another with the same quay. -/
theorem State.KeepsQuay.congr {s t u : State} (h : s.KeepsQuay t) (same : u.quay = t.quay) : s.KeepsQuay u :=
  h.trans (.of_eq same)

/-! ## One record rewritten -/

theorem State.setHead_keepsQuay {s : State} {h : HeadNum} {r : Head} (hr : (s.headRec h).Lawful → r.Lawful) :
    s.KeepsQuay (s.setHead h r) where
  params := id
  zones := id
  vessels := id
  events := id
  heads lawful m := by
    rw [State.setHead_headRec]
    split
    · exact hr (lawful h)
    · exact lawful m

theorem State.setEvent_keepsQuay {s : State} {c : EventClass} {r : EventRec}
    (hr : s.EventsLawful → r.level ≤ 7 ∧ (r.pending = true → r.subject.isSome = true)) :
    s.KeepsQuay (s.setEvent c r) where
  params := id
  zones := id
  vessels := id
  heads := id
  events lawful d := by
    rw [State.setEvent_eventRec]
    split
    · exact hr lawful
    · exact lawful d

/-- R165: a raise gives its class a subject and leaves its level. -/
theorem State.raise_keepsQuay (s : State) (c : EventClass) (x : Subject) : s.KeepsQuay (s.raise c x) :=
  State.setEvent_keepsQuay fun lawful => ⟨(lawful c).1, fun _ => rfl⟩

theorem State.raiseHighest_keepsQuay (s : State) (c : EventClass) (n : Option CtxNum) :
    s.KeepsQuay (s.raiseHighest c n) := by
  cases n with
  | none => exact .refl s
  | some n => exact s.raise_keepsQuay c _

theorem State.addLoad_keepsQuay (s : State) (h : HeadNum) : s.KeepsQuay (s.addLoad h) :=
  State.setHead_keepsQuay fun lawful => lawful.withLoad _

theorem State.subLoad_keepsQuay (s : State) (h : HeadNum) : s.KeepsQuay (s.subLoad h) :=
  State.setHead_keepsQuay fun lawful => lawful.withLoad _

theorem State.onHead_keepsQuay {f : State → HeadNum → State} (hf : ∀ s h, State.KeepsQuay s (f s h)) (s : State)
    (h : Option HeadNum) : s.KeepsQuay (s.onHead h f) := by
  cases h with
  | none => exact .refl s
  | some h => exact hf s h

/-! ## Requests that write the quay -/

/-- R164: the value stored lies in the range of its parameter. -/
theorem State.paramSet_keepsQuay (s : State) (ch : ChanNum) (f : ParamSetFields) : s.KeepsQuay (s.paramSet ch f) := by
  unfold State.paramSet
  split
  · next sel _ =>
    refine ⟨fun lawful other => ?_, id, id, id, id⟩
    have ordered : sel.range.1 ≤ sel.range.2 := by
      rcases sel with ⟨p, -⟩ | p <;> cases p <;> exact Nat.le_of_ble_eq_true rfl
    have bounds := clamp_bounds ordered f.value.toNat
    show other.range.1 ≤ (s.params.put sel _).get other ∧ (s.params.put sel _).get other ≤ other.range.2
    rw [Params.get_put]
    split
    · next same => subst same; exact bounds
    · exact lawful other
  · exact .of_eq (State.finish_quay ..)

/-- R119, R120: a window that passes the checks is aligned and apart from every other enabled one. -/
theorem State.setZone_zonesLawful {s : State} {w : Fin 8} {z : ZoneWindow} (aligned : ¬ (z.enabled ∧ z.misaligned))
    (apart : ¬ (z.enabled ∧ s.zoneClash w z)) (lawful : s.ZonesLawful) : (s.setZone w z).ZonesLawful := by
  obtain ⟨bases, disjoint⟩ := lawful
  have apartFrom {v : Fin 8} (other : v ≠ w) (active : (s.zone v).enabled = true) (enabled : z.enabled = true) (p : Nat) :
      ¬ (z.holds p = true ∧ (s.zone v).holds p = true) :=
    fun both => apart ⟨enabled, (s.zoneClash_iff w z).2 ⟨v, other, active, p, both⟩⟩
  refine ⟨fun v => ?_, fun v v' differ => ?_⟩
  · rw [State.setZone_zone]
    split
    · intro enabled
      have straight := fun crooked => aligned ⟨enabled, z.misaligned_iff.2 crooked⟩
      exact Decidable.not_not.1 fun crooked => straight (.inl crooked)
    · exact bases v
  · rw [State.setZone_zone, State.setZone_zone]
    split
    · next here =>
      rw [if_neg fun there => differ (here.symm.trans there)]
      exact fun enabled active => apartFrom (fun same => differ (here.symm.trans same.symm)) active enabled
    · split
      · next there =>
        exact fun active enabled p both => apartFrom (fun same => differ (same.trans there)) active enabled p both.symm
      · exact disjoint v v' differ

theorem State.zoneSet_keepsQuay (s : State) (ch : ChanNum) (f : ZoneSetFields) : s.KeepsQuay (s.zoneSet ch f) := by
  unfold State.zoneSet
  split
  · split
    · exact .of_eq (State.finish_quay ..)
    · next aligned =>
      split
      · exact .of_eq (State.finish_quay ..)
      · next apart => exact ⟨id, State.setZone_zonesLawful aligned apart, id, id, id⟩
  · exact .of_eq (State.finish_quay ..)

/-- R125: the length stored is 1 to 65535. -/
theorem State.vesselSet_keepsQuay (s : State) (ch : ChanNum) (f : VesselSetFields) : s.KeepsQuay (s.vesselSet ch f) := by
  unfold State.vesselSet
  split
  · next w enabled _ _ =>
    refine ⟨id, id, fun lawful v => ?_, id, id⟩
    show 1 ≤ ((s.setVessel w _).vessel v).length ∧ ((s.setVessel w _).vessel v).length ≤ 65535
    rw [State.setVessel_vessel]
    split
    · exact clamp_bounds (by decide) _
    · exact lawful v
  · exact .of_eq (State.finish_quay ..)

/-- R167: the class read is pending no more. -/
theorem State.eventRead_keepsQuay (s : State) (ch : ChanNum) : s.KeepsQuay (s.eventRead ch) := by
  unfold State.eventRead
  split
  · next c _ =>
    have read : s.KeepsQuay (s.setEvent c { s.eventRec c with pending := false }) :=
      State.setEvent_keepsQuay fun lawful => ⟨(lawful c).1, nofun⟩
    exact read.congr (State.finish_quay ..)
  · exact .of_eq (State.finish_quay ..)

/-- R168: the level stored is 0 to 7. -/
theorem State.eventSetup_keepsQuay (s : State) (ch : ChanNum) (f : EventSetupFields) :
    s.KeepsQuay (s.eventSetup ch f) := by
  unfold State.eventSetup
  split
  · next c masked _ _ =>
    have stored : s.KeepsQuay (s.setEvent c { s.eventRec c with level := clamp 0 7 f.level.toNat, masked := masked }) :=
      State.setEvent_keepsQuay fun lawful => ⟨(clamp_bounds (by decide) _).2, (lawful c).2⟩
    exact stored.congr (State.finish_quay ..)
  · exact .of_eq (State.finish_quay ..)

/-! ## Heads (R46 to R60) -/

/-- R46, R47: a frame of a head that is taken. -/
theorem State.takeFrame_keepsQuay (s : State) (h : HeadNum) : s.KeepsQuay (s.takeFrame h) := by
  rw [takeFrame_eq, State.hearing]
  split
  · exact State.setHead_keepsQuay (heard_lawful s.clock)
  · exact .of_eq rfl

theorem State.settle_keepsQuay (s : State) (h : HeadNum) : s.KeepsQuay (s.settle h) := by
  unfold State.settle
  dsimp only
  split
  · next due => exact State.setHead_keepsQuay fun lawful => lawful.settled due.1
  · exact .refl s

theorem State.enterService_keepsQuay (s : State) (h : HeadNum) : s.KeepsQuay (s.enterService h) := by
  unfold State.enterService
  dsimp only
  split
  · next ready =>
    obtain ⟨standby, enabled, floor⟩ := ready
    have entered : s.KeepsQuay (s.setHead h { s.headRec h with link := .inService }) :=
      State.setHead_keepsQuay fun lawful => lawful.entered standby enabled floor
    exact (entered.congr (State.sendHead_quay ..)).trans (State.raise_keepsQuay ..)
  · exact .refl s

theorem State.withdraw_keepsQuay (s : State) (h : HeadNum) : s.KeepsQuay (s.withdraw h) := by
  have unloaded : s.KeepsQuay (s.setHead h { s.headRec h with load := 0 }) :=
    State.setHead_keepsQuay fun lawful => lawful.withLoad 0
  unfold State.withdraw
  refine .trans ?_ (State.raiseHighest_keepsQuay ..)
  refine .trans ?_ (State.raiseHighest_keepsQuay ..)
  exact unloaded.congr rfl

/-- Frames that wait on the links make no difference to a withdrawal. -/
theorem State.withdraw_keepsQuay_of_queues (s : State) (h : HeadNum) (queues : Vector (List HeadMsg) 16) :
    s.KeepsQuay ({ s with headTx := queues }.withdraw h) :=
  (State.KeepsQuay.of_eq (s := s) (t := { s with headTx := queues }) rfl).trans (State.withdraw_keepsQuay _ h)

theorem State.withdraw_headRec_self (s : State) (h : HeadNum) :
    (s.withdraw h).headRec h = { s.headRec h with load := 0 } := by
  rw [State.withdraw_headRec, if_pos rfl]

/-- R48: the record of a head whose link is lost, withdrawn before when it was in service. -/
theorem State.linkLoss_keepsQuay (s : State) (h : HeadNum) : s.KeepsQuay (s.linkLoss h) := by
  unfold State.linkLoss
  dsimp only
  split
  · generalize hv : (if (s.headRec h).link = .inService then _ else _ : State) = v
    have left : s.KeepsQuay v ∧ ∃ load, v.headRec h = { s.headRec h with load := load } := by
      subst hv
      split
      · exact ⟨s.withdraw_keepsQuay_of_queues h _, 0, State.withdraw_headRec_self { s with headTx := s.headTx.set h [] } h⟩
      · exact ⟨.of_eq rfl, (s.headRec h).load, rfl⟩
    obtain ⟨kept, load, record⟩ := left
    have survey : (v.headRec h).survey = (s.headRec h).survey := by rw [record]
    refine kept.trans (.trans ?_ (State.raise_keepsQuay _ .headState _))
    split
    · refine .trans (State.setHead_keepsQuay fun lawful => ?_) (State.raise_keepsQuay _ .survey _)
      exact (lawful.ended .aborted).lost (by simp)
    · next quiet => exact State.setHead_keepsQuay fun lawful => lawful.lost (survey ▸ quiet)
  · exact .refl s

theorem State.surveyEnds_keepsQuay (s : State) (h : HeadNum) : s.KeepsQuay (s.surveyEnds h) := by
  unfold State.surveyEnds
  dsimp only
  split
  · next running =>
    refine .trans ?_ (State.raise_keepsQuay _ .survey _)
    split
    · exact (State.setHead_keepsQuay fun lawful => lawful.ended .failed).congr (State.sendHead_quay ..)
    · refine .trans (.congr (State.setHead_keepsQuay fun lawful => ?_) (State.sendHead_quay ..))
        (State.enterService_keepsQuay ..)
      exact (lawful.ended .done).surveyed (lawful.linked running.1) lawful.mean_le
  · exact .refl s

/-- R57, R59, R60: the sample is added to a survey that runs, or moves I within its range. -/
theorem State.noiseSample_keepsQuay (s : State) (h : HeadNum) (x : Byte) : s.KeepsQuay (s.noiseSample h x) := by
  unfold State.noiseSample
  dsimp only
  split
  · exact State.setHead_keepsQuay fun lawful => lawful.sampled x
  · split
    · next floor idle _ had =>
      have moved (wanted : Bool) (lawful : (s.headRec h).Lawful) :
          ({ s.headRec h with idle := some (idleStep idle x.toNat), resurvey := wanted } : Head).Lawful := by
        obtain ⟨lo, hi⟩ := lawful.idle_range had
        obtain ⟨lo', hi'⟩ := idleStep_range lo hi x
        exact lawful.drifting had lo' hi' wanted
      split
      · exact (State.setHead_keepsQuay (moved true)).trans (State.raise_keepsQuay ..)
      · exact State.setHead_keepsQuay (moved (s.headRec h).resurvey)
    · exact .refl s

theorem State.keepalive_keepsQuay (s : State) (h : HeadNum) (x : Option Byte) : s.KeepsQuay (s.keepalive h x) := by
  cases x with
  | none => exact s.takeFrame_keepsQuay h
  | some x => exact (s.takeFrame_keepsQuay h).trans (State.noiseSample_keepsQuay ..)

theorem State.headSet_keepsQuay (s : State) (ch : ChanNum) (f : HeadSetFields) : s.KeepsQuay (s.headSet ch f) := by
  unfold State.headSet
  split
  · next h side _ _ =>
    obtain ⟨lo, hi⟩ := clamp_bounds (lo := 1) (hi := 2048) (by decide) f.capacity.toNat
    exact (State.setHead_keepsQuay (s := s) (h := h) fun lawful => lawful.placed f.position side lo hi).congr
      (State.finish_quay ..)
  · exact .of_eq (State.finish_quay ..)

theorem State.headEnable_keepsQuay (s : State) (ch : ChanNum) (f : Byte) : s.KeepsQuay (s.headEnable ch f) := by
  unfold State.headEnable
  split
  · exact ((State.setHead_keepsQuay fun lawful => lawful.enabled).trans (State.enterService_keepsQuay ..)).congr
      (State.finish_quay ..)
  · exact .of_eq (State.finish_quay ..)

/-- R51: the record of a head may be written before its withdrawal or after it. -/
theorem State.withdraw_setHead (s : State) (h : HeadNum) (r : Head) :
    (s.setHead h r).withdraw h = (s.withdraw h).setHead h { r with load := 0 } := by
  have same (p : Context → Bool) : (s.setHead h r).highest p = s.highest p := rfl
  unfold State.withdraw
  simp only [same]
  cases s.highest (Context.orphanedBy h) <;> cases s.highest (Context.failedBy h) <;>
    simp [State.raiseHighest, State.raise, State.setEvent, State.setHead, State.setPlan, State.eventRec, State.headRec,
      State.ctx]

/-- R51, R131: everything the disabling of a head in service does. -/
theorem State.disableHead_inService {s : State} {h : HeadNum} (inService : (s.headRec h).link = .inService) :
    s.disableHead h =
      (({ s with headTx := s.headTx.set h (s.headTx[h].filter HeadMsg.keptAtDisable) }.withdraw h).setHead h
        { s.headRec h with admin := .disabled, link := .standby, load := 0 }).raise .headState (.head h) := by
  have written := State.withdraw_setHead { s with headTx := s.headTx.set h (s.headTx[h].filter HeadMsg.keptAtDisable) } h
    { s.headRec h with admin := .disabled }
  unfold State.disableHead
  dsimp only
  rw [if_pos inService]
  refine congrArg (State.raise · .headState (.head h)) ?_
  refine (congrArg (fun v : State => v.setHead h { v.headRec h with link := .standby }) written).trans ?_
  rw [State.setHead_headRec_self, State.setHead_setHead]

theorem State.disableHead_keepsQuay (s : State) (h : HeadNum) : s.KeepsQuay (s.disableHead h) := by
  by_cases inService : (s.headRec h).link = .inService
  · rw [State.disableHead_inService inService]
    refine .trans ?_ (State.raise_keepsQuay _ .headState _)
    refine .trans (s.withdraw_keepsQuay_of_queues h (s.headTx.set h (s.headTx[h].filter HeadMsg.keptAtDisable))) ?_
    refine State.setHead_keepsQuay fun lawful => ?_
    rw [State.withdraw_headRec_self] at lawful
    exact (lawful.left inService).withLoad 0
  · unfold State.disableHead
    dsimp only
    rw [if_neg inService]
    exact State.setHead_keepsQuay fun lawful => lawful.disabled inService

theorem State.headDisable_keepsQuay (s : State) (ch : ChanNum) (f : Byte) : s.KeepsQuay (s.headDisable ch f) := by
  unfold State.headDisable
  split
  · exact (State.disableHead_keepsQuay ..).congr (State.finish_quay ..)
  · exact .of_eq (State.finish_quay ..)

theorem State.surveyRequest_keepsQuay (s : State) (ch : ChanNum) (f : SurveyFields) :
    s.KeepsQuay (s.surveyRequest ch f) := by
  unfold State.surveyRequest
  split
  · next h _ =>
    have started (linked : (s.headRec h).link = .standby ∨ (s.headRec h).link = .inService) (duration : Nat) :
        s.KeepsQuay (s.startSurvey h duration) :=
      (State.setHead_keepsQuay fun lawful => lawful.surveying linked _).congr (State.sendHead_quay ..)
    dsimp only
    split
    · exact .of_eq (State.finish_quay ..)
    · exact .of_eq (State.finish_quay ..)
    · next standby => exact (started (.inl standby) _).congr (State.finish_quay ..)
    · next inService => exact (started (.inr inService) _).congr (State.finish_quay ..)
  · exact .of_eq (State.finish_quay ..)

end Sys2Proof.Machine
end

section
/-! The tier 3 statement about the records outside the contexts: a step keeps each of their laws, and the frames that arrive
between steps keep every law of the device (R46, R47, R175). -/

namespace Sys2Proof.Machine

open Sys2Proof

/-! ## Contexts that raise events (R35, R112, R113, R149, R153) -/

theorem State.holdExpiry_keepsQuay (s : State) (ch : ChanNum) : s.KeepsQuay (s.holdExpiry ch) := by
  unfold State.holdExpiry
  split
  · next n _ =>
    split
    · refine .congr ?_ (State.handOn_quay ..)
      exact (State.KeepsQuay.of_eq (s.dropHold_quay n ch)).trans (State.raise_keepsQuay ..)
    · exact .refl s
  · exact .refl s

theorem State.giveUpTarget_keepsQuay (s : State) (n : CtxNum) : s.KeepsQuay (s.giveUpTarget n) := by
  unfold State.giveUpTarget
  dsimp only
  refine .trans (.of_eq ?_) (State.raise_keepsQuay ..)
  rw [State.setCtx_quay, State.forCrane_quay fun s' => State.onHead_quay (fun s'' h => s''.freePending_quay h n) s' _]

theorem State.fallSilent_keepsQuay (s : State) (n : CtxNum) (cause : SilentCause) : s.KeepsQuay (s.fallSilent n cause) := by
  unfold State.fallSilent
  refine .trans ?_ (State.raise_keepsQuay _ .contextSilent (.context n))
  exact .of_eq rfl

theorem State.abandonAndFallSilent_keepsQuay (s : State) (n : CtxNum) (cause : SilentCause) :
    s.KeepsQuay (s.abandonAndFallSilent n cause) := by
  unfold State.abandonAndFallSilent
  split
  · exact (s.giveUpTarget_keepsQuay n).trans (State.fallSilent_keepsQuay ..)
  all_goals exact s.fallSilent_keepsQuay n cause

theorem State.lossDeadline_keepsQuay (s : State) (n : CtxNum) : s.KeepsQuay (s.lossDeadline n) := by
  unfold State.lossDeadline
  dsimp only
  split
  · exact s.abandonAndFallSilent_keepsQuay n .linkLost
  · exact .refl s

theorem State.orphanDeadline_keepsQuay (s : State) (n : CtxNum) : s.KeepsQuay (s.orphanDeadline n) := by
  unfold State.orphanDeadline
  dsimp only
  split
  · exact s.fallSilent_keepsQuay n .orphaned
  · exact .refl s

theorem State.dueExpiry_keepsQuay (s : State) : s.KeepsQuay s.dueExpiry := by
  unfold State.dueExpiry
  split
  · split
    · exact s.abandonAndFallSilent_keepsQuay _ .reportMissed
    · exact .refl s
  · exact .refl s

theorem State.confirmationDeadline_keepsQuay (s : State) (n : CtxNum) : s.KeepsQuay (s.confirmationDeadline n) := by
  unfold State.confirmationDeadline
  dsimp only
  split
  · refine (s.giveUpTarget_keepsQuay n).trans ?_
    split
    · exact .of_eq (State.setCtx_quay ..)
    · exact (State.KeepsQuay.of_eq (State.orphan_quay _ n)).trans (State.raise_keepsQuay ..)
  · exact .refl s

/-! ## Contacts (R66 to R78) -/

theorem State.confirm_keepsQuay (s : State) (n : CtxNum) (target : HeadNum) : s.KeepsQuay (s.confirm n target) := by
  have slots (former : Option HeadNum) : (s.forCrane n fun s =>
      (s.onHead former fun s h => s.freeActive h n).activatePending target n).quay = s.quay :=
    State.forCrane_quay (fun s' => (State.activatePending_quay ..).trans
      (State.onHead_quay (fun s'' h => s''.freeActive_quay h n) s' _)) s n
  unfold State.confirm
  refine .congr (.trans ?_ (State.addLoad_keepsQuay ..)) (State.setCtx_quay ..)
  exact (State.KeepsQuay.of_eq (slots _)).trans (State.onHead_keepsQuay State.subLoad_keepsQuay ..)

theorem State.rehome_keepsQuay (s : State) (a : HeadNum) (n : CtxNum) : s.KeepsQuay (s.rehome a n) := by
  have given : s.KeepsQuay (s.given a n) := (s.addLoad_keepsQuay a).congr (State.setCtx_quay ..)
  rw [State.rehome_eq_given]
  refine given.congr ?_
  rw [State.enterActive_quay, State.forCrane_quay fun u => u.reserveActive_quay a n _]

theorem State.judgeRehome_keepsQuay (s : State) (a : HeadNum) (n : CtxNum) : s.KeepsQuay (s.judgeRehome a n).1 := by
  unfold State.judgeRehome
  split
  · exact s.rehome_keepsQuay a n
  · exact .refl s

theorem State.giveVerdict_keepsQuay (s : State) (a : HeadNum) (n : CtxNum) : s.KeepsQuay (s.giveVerdict a n).1 := by
  unfold State.giveVerdict
  dsimp only
  split
  · exact .refl s
  · split <;> exact .refl s
  · split
    · exact s.confirm_keepsQuay n a
    · split <;> exact .refl s
  · exact s.judgeRehome_keepsQuay a n
  · split
    · exact .of_eq (s.returnFromSilence_quay n)
    · exact s.judgeRehome_keepsQuay a n

theorem State.intake_keepsQuay (s : State) (n : CtxNum) (p : ReportPayload) : s.KeepsQuay (s.intake n p) := by
  unfold State.intake
  split
  · exact .refl s
  · next r _ =>
    split
    · exact .refl s
    · dsimp only
      have stored (condition : Bool) : s.KeepsQuay (if condition then
          (s.setCtx n { s.ctx n with reefer := some (r.take p s.clock) }).raise .reeferCondition (.context n)
          else s.setCtx n { s.ctx n with reefer := some (r.take p s.clock) }) := by
        have written := State.KeepsQuay.of_eq (s.setCtx_quay n { s.ctx n with reefer := some (r.take p s.clock) })
        split
        · exact written.trans (State.raise_keepsQuay ..)
        · exact written
      split
      · exact (stored _).congr (State.setDue_quay ..)
      · exact stored _

theorem State.laterStages_keepsQuay (s : State) (a : HeadNum) (n : CtxNum) (sample : Byte) (position : Option Half)
    (payload : Option ReportPayload) : s.KeepsQuay (s.laterStages a n sample position payload) := by
  have measured : s.KeepsQuay ((s.qualityUpdate a n sample).capturePosition n position) := .of_eq (by simp)
  unfold State.laterStages
  refine .congr (.congr ?_ (State.restartLoss_quay ..)) (State.evaluateAt_quay ..)
  cases payload with
  | none => exact measured
  | some p => exact measured.trans (State.intake_keepsQuay ..)

theorem State.contact_keepsQuay (s : State) (a : HeadNum) (tag : Half) (sample : Byte) (position : Option Half)
    (payload : Option ReportPayload) : s.KeepsQuay (s.contact a tag sample position payload) := by
  refine (s.takeFrame_keepsQuay a).trans ?_
  unfold State.contact
  dsimp only
  split
  · exact .of_eq (State.sendHead_quay ..)
  · next n _ =>
    split
    · refine .congr ?_ (State.sendHead_quay ..)
      exact (State.giveVerdict_keepsQuay _ a n).trans (State.laterStages_keepsQuay ..)
    · exact .of_eq (State.sendHead_quay ..)

/-! ## Contexts that come and go (R15, R18, R22) -/

theorem State.withAdmitted_keepsQuay (s : State) (n : CtxNum) (c : Context) (id : Identity) (rest : List CtxNum)
    (h : HeadNum) (k : Nat) : s.KeepsQuay (s.withAdmitted n c id rest h k) := by
  have listed : s.KeepsQuay ({ s.setCtx n c with freeList := rest, idMap := insertId id n s.idMap }.addLoad h) :=
    (s.addLoad_keepsQuay h).congr rfl
  unfold State.withAdmitted
  dsimp only
  split
  · exact listed.congr (State.reserveActive_quay ..)
  · exact listed

theorem State.admission_keepsQuay (s : State) (ch : ChanNum) (f : AdmitFields) : s.KeepsQuay (s.admission ch f) := by
  have refused (r : Reply) : s.KeepsQuay (s.finish ch admitCode r) := .of_eq (State.finish_quay ..)
  unfold State.admission
  split
  · next h cls _ _ =>
    split
    · exact refused _
    · split
      · exact refused _
      · split
        · exact refused _
        · split
          · exact refused _
          · next n rest _ =>
            split
            · exact refused _
            · split
              · exact refused _
              · split
                · exact refused _
                · rw [State.admitAccepted_eq]
                  exact (s.withAdmitted_keepsQuay n _ f.identity rest h _).congr
                    ((State.finish_quay ..).trans (State.enterActive_quay ..))
  · exact refused _

theorem State.leaveQuay_keepsQuay (s : State) (n : CtxNum) : s.KeepsQuay (s.leaveQuay n) := by
  rw [State.leaveQuay_eq]
  exact (State.onHead_keepsQuay State.subLoad_keepsQuay s (s.ctx n).serving).congr
    (by cases (s.ctx n).serving <;> rfl)

theorem State.retirement_keepsQuay (s : State) (ch : ChanNum) (f : Half) : s.KeepsQuay (s.retirement ch f) := by
  have refused (r : Reply) : s.KeepsQuay (s.finish ch retireCode r) := .of_eq (State.finish_quay ..)
  unfold State.retirement
  split
  · exact refused _
  · next n _ =>
    split
    · exact refused _
    · split
      · exact refused _
      · have letGo : s.KeepsQuay ((s.dropOwnHold n ch).answerGone n) := .of_eq (by simp)
        exact (letGo.trans (State.leaveQuay_keepsQuay _ n)).congr
          ((State.finish_quay ..).trans (State.freeRecord_quay ..))

/-- R65, R171: a FLUSH sets every load to 0. -/
theorem State.flushRequest_keepsQuay (s : State) (ch : ChanNum) : s.KeepsQuay (s.flushRequest ch) := by
  have emptied (t : State) : t.KeepsQuay (t.emptied ch) := by
    refine ⟨id, id, id, id, fun lawful h => ?_⟩
    have record : (t.emptied ch).headRec h = { t.headRec h with load := 0 } := by
      simp [State.emptied, State.headRec]
    rw [record]
    exact (lawful h).withLoad 0
  exact ((State.KeepsQuay.of_eq (s.cancelParked_quay ch)).trans (emptied _)).congr
    ((State.finish_quay ..).trans (State.clearPlans_quay _))

/-! ## The reset state (R170) -/

theorem State.reset_quay_lawful : State.reset.ParamsInRange ∧ State.reset.ZonesLawful ∧ State.reset.VesselsLawful ∧
    State.reset.EventsLawful ∧ State.reset.HeadsLawful := by
  have zone (w : Fin 8) : State.reset.zone w = ZoneWindow.reset := by simp [State.reset, State.zone]
  have vessel (w : Fin 4) : State.reset.vessel w = VesselWindow.reset := by simp [State.reset, State.vessel]
  have headRec (h : HeadNum) : State.reset.headRec h = Head.reset := by simp [State.reset, State.headRec]
  refine ⟨fun sel => ?_, ⟨fun w enabled => ?_, fun v w _ enabled => ?_⟩, fun w => ?_, fun c => ?_, fun h => ?_⟩
  · rcases sel with ⟨p, c⟩ | p
    · cases p <;> cases c <;> decide
    · cases p <;> decide
  · simp [zone, ZoneWindow.reset] at enabled
  · simp [zone, ZoneWindow.reset] at enabled
  · simp [vessel, VesselWindow.reset]
  · cases c <;> decide
  · rw [headRec]; exact Head.reset_lawful

theorem State.KeepsQuay.of_reset {s t : State} (h : t.quay = State.reset.quay) : s.KeepsQuay t := by
  obtain ⟨params, zones, vessels, events, heads⟩ := State.reset_quay_lawful
  have same := State.KeepsQuay.of_eq h
  exact ⟨fun _ => same.params params, fun _ => same.zones zones, fun _ => same.vessels vessels,
    fun _ => same.events events, fun _ => same.heads heads⟩

theorem State.released_keepsQuay (s : State) : s.KeepsQuay s.released := by
  unfold State.released
  split
  · exact .of_reset rfl
  · exact .refl s

/-! ## A step -/

theorem State.whileRunning_keepsQuay {s : State} {f : State → State} (hf : s.KeepsQuay (f s)) :
    s.KeepsQuay (s.whileRunning f) := by
  unfold State.whileRunning
  split
  · exact .refl s
  · exact hf

theorem State.takeRequest_keepsQuay {α : Type} {run : α → State → State} (hrun : ∀ f s, State.KeepsQuay s (run f s))
    (s : State) (ch : ChanNum) (code : Byte) (b : Body α) : s.KeepsQuay (s.takeRequest ch code b run) := by
  rw [State.takeRequest_cases]
  split
  · exact .refl s
  · split
    · cases b with
      | badForm => exact .of_eq (State.answer_quay ..)
      | fields f => exact (State.KeepsQuay.of_eq (s.setChanState_quay ch .busy)).trans (hrun f _)
    · exact .of_eq (State.answer_quay ..)

theorem State.takeOnSweeping_keepsQuay {f : State → State} (hf : ∀ s, (f s).quay = s.quay) (s : State) (ch : ChanNum)
    (code : Byte) (b : Body Unit) : s.KeepsQuay (s.takeOnSweeping ch code b f) := by
  rw [State.takeOnSweeping_cases]
  split
  · exact .refl s
  · split
    case h_4 => exact .of_eq (hf s)
    all_goals exact .of_eq (State.answer_quay ..)

/-- A command keeps every law of the quay. Requests and expiries that leave the quay alone are grouped: the tagged lemmas
about `quay` say so of each. -/
theorem exec_keepsQuay {i : Instr} {s t : State} (h : exec i s = .next t) : s.KeepsQuay t := by
  have request {α : Type} {run : α → State → State} (hrun : ∀ f (s : State), s.KeepsQuay (run f s)) (ch : ChanNum)
      (code : Byte) (b : Body α) : s.KeepsQuay (s.takeRequest ch code b run) :=
    State.takeRequest_keepsQuay hrun s ch code b
  have quiet {α : Type} {run : α → State → State} (hrun : ∀ f (s : State), (run f s).quay = s.quay) (ch : ChanNum)
      (code : Byte) (b : Body α) : s.KeepsQuay (s.takeRequest ch code b run) :=
    request (fun f s => .of_eq (hrun f s)) ch code b
  have running {f : State → State} (hf : s.KeepsQuay (f s)) : s.KeepsQuay (s.whileRunning f) :=
    State.whileRunning_keepsQuay hf
  have runningQuiet {f : State → State} (hf : (f s).quay = s.quay) : s.KeepsQuay (s.whileRunning f) :=
    running (.of_eq hf)
  cases i
  case admitReq ch b => cases h; exact request (fun f s => s.admission_keepsQuay ch f) ch _ b
  case retire ch b => cases h; exact request (fun f s => s.retirement_keepsQuay ch f) ch _ b
  case headSet ch b => cases h; exact request (fun f s => s.headSet_keepsQuay ch f) ch _ b
  case headEnable ch b => cases h; exact request (fun f s => s.headEnable_keepsQuay ch f) ch _ b
  case headDisable ch b => cases h; exact request (fun f s => s.headDisable_keepsQuay ch f) ch _ b
  case survey ch b => cases h; exact request (fun f s => s.surveyRequest_keepsQuay ch f) ch _ b
  case zoneSet ch b => cases h; exact request (fun f s => s.zoneSet_keepsQuay ch f) ch _ b
  case vesselSet ch b => cases h; exact request (fun f s => s.vesselSet_keepsQuay ch f) ch _ b
  case paramSet ch b => cases h; exact request (fun f s => s.paramSet_keepsQuay ch f) ch _ b
  case eventRead ch b => cases h; exact request (fun _ s => s.eventRead_keepsQuay ch) ch _ b
  case eventSetup ch b => cases h; exact request (fun f s => s.eventSetup_keepsQuay ch f) ch _ b
  case flush ch b => cases h; exact request (fun _ s => s.flushRequest_keepsQuay ch) ch _ b
  case find | read | update | fetch | store | release | sweep | headRead | zoneRead | vesselRead | planRead | paramRead =>
    cases h; exact quiet (fun _ _ => by simp) ..
  case continueSweep ch b => cases h; exact State.takeOnSweeping_keepsQuay (fun s => s.continueRequest_quay ch) s ..
  case stopSweep ch b => cases h; exact State.takeOnSweeping_keepsQuay (fun s => s.stopRequest_quay ch) s ..
  case illegal ch code =>
    simp only [exec, execIllegal] at h
    split at h
    · cases h
    · cases h; exact quiet (fun _ s => s.finish_quay ch code .illegal) ..
  case channelDiscard channel =>
    simp only [exec, execChannelDiscard] at h
    split at h
    · cases h; exact .refl s
    · cases h
  case frameDiscard l => cases h; exact .refl s
  case keepalive a x => cases h; exact running (s.keepalive_keepsQuay a x)
  case arrival a tag x p => cases h; exact running (s.contact_keepsQuay a tag x p none)
  case report a tag x q => cases h; exact running (s.contact_keepsQuay a tag x none (some q))
  case malformedHeadFrame a =>
    cases h; exact running ((s.takeFrame_keepsQuay a).trans (State.raise_keepsQuay ..))
  case holdExpiry ch => cases h; exact running (s.holdExpiry_keepsQuay ch)
  case linkLoss a => cases h; exact running (s.linkLoss_keepsQuay a)
  case settleDeadline a => cases h; exact running (s.settle_keepsQuay a)
  case surveyEndTime a => cases h; exact running (s.surveyEnds_keepsQuay a)
  case lossDeadline n => cases h; exact running (s.lossDeadline_keepsQuay n)
  case orphanDeadline n => cases h; exact running (s.orphanDeadline_keepsQuay n)
  case confirmationDeadline n => cases h; exact running (s.confirmationDeadline_keepsQuay n)
  case dueExpiry => cases h; exact running s.dueExpiry_keepsQuay
  case cancel | parkDeadline | idleDeadline | staleDeadline | partClockTick =>
    cases h; exact runningQuiet (by simp)
  case noCodeRequestFrame ch => cases h; exact runningQuiet (by split <;> simp)
  case resetAssert => cases h; exact .of_reset rfl
  case resetRelease => cases h; exact s.released_keepsQuay

theorem step_keepsQuay {s t : State} (h : step s = .next t) : s.KeepsQuay t := by
  unfold step at h
  split at h
  · next c rest _ =>
    exact (State.KeepsQuay.of_eq (s := s) (t := { s with pending := rest }) rfl).trans (exec_keepsQuay h)
  · cases h; exact .of_eq s.transmit_quay

/-! ## Frames that arrive between steps (R46, R47, R175) -/

/-- Bytes on the control link change no record that a law speaks of. -/
theorem State.receiveControl_lawful {s : State} (lawful : s.Lawful) (bs : List Byte) : (s.receiveControl bs).Lawful := by
  obtain ⟨params, zones, vessels, events, heads, contexts, values, entries, roles, freeList, idMap, cranes, loads, named,
    counted, channels, holds, dueList⟩ := lawful
  unfold State.receiveControl State.whileRunning
  split
  all_goals exact ⟨params, zones, vessels, events, heads, contexts, values, entries, roles, freeList, idMap, cranes, loads,
    named, counted, channels, holds, dueList⟩

/-- Bytes on the link of head h either leave every head record or let h be heard. -/
theorem State.receiveHead_headRec (s : State) (h : HeadNum) (bs : List Byte) (m : HeadNum) :
    (s.receiveHead h bs).headRec m = s.headRec m ∨ (s.receiveHead h bs).headRec m = (s.headRec m).heard s.clock := by
  unfold State.receiveHead State.whileRunning
  split
  · exact .inl rfl
  · dsimp only
    rw [foldl_frameArrives]
    dsimp only
    split
    · exact .inl rfl
    · show (s.setHead h _).headRec m = _ ∨ (s.setHead h _).headRec m = _
      rw [State.setHead_headRec]
      split
      · next same => subst same; exact .inr rfl
      · exact .inl rfl

theorem State.receiveHead_headsLawful {s : State} (lawful : s.HeadsLawful) (h : HeadNum) (bs : List Byte) :
    (s.receiveHead h bs).HeadsLawful := by
  intro m
  rcases s.receiveHead_headRec h bs m with same | heard
  · rw [same]; exact lawful m
  · rw [heard]; exact heard_lawful s.clock (lawful m)

/-- Bytes on a head link put no head into or out of service and change no load. -/
theorem State.receiveHead_load_inService (s : State) (h : HeadNum) (bs : List Byte) (m : HeadNum) :
    ((s.receiveHead h bs).headRec m).load = (s.headRec m).load ∧ (s.receiveHead h bs).inService m = s.inService m := by
  unfold State.inService
  rcases s.receiveHead_headRec h bs m with same | heard
  · rw [same]; exact ⟨rfl, rfl⟩
  · rw [heard]; exact ⟨rfl, decide_eq_decide.2 (heard_inService ..)⟩

/-- Beside the head records, bytes on a head link change the queue of commands, the buffer and the count of the link. -/
theorem State.receiveHead_eq (s : State) (h : HeadNum) (bs : List Byte) :
    s.receiveHead h bs = { s with
      heads := (s.receiveHead h bs).heads, pending := (s.receiveHead h bs).pending
      headRx := (s.receiveHead h bs).headRx, counted := (s.receiveHead h bs).counted } := by
  unfold State.receiveHead State.whileRunning
  split
  · rfl
  · dsimp only
    rw [foldl_frameArrives]

theorem State.receiveHead_lawful {s : State} (lawful : s.Lawful) (h : HeadNum) (bs : List Byte) :
    (s.receiveHead h bs).Lawful := by
  have heads := State.receiveHead_headsLawful lawful.heads h bs
  have same := s.receiveHead_load_inService h bs
  have whole := s.receiveHead_eq h bs
  generalize s.receiveHead h bs = t at heads same whole ⊢
  obtain ⟨params, zones, vessels, events, -, contexts, values, entries, roles, freeList, idMap, cranes, loads, named,
    counted, channels, holds, dueList⟩ := lawful
  refine ⟨?_, ?_, ?_, ?_, heads, ?_, ?_, ?_, fun n => ?_, ?_, ?_, ?_, fun m => ?_, ?_, ?_, ?_, ?_, ?_⟩
  case refine_8 =>
    have ctx : t.ctx n = s.ctx n := by rw [whole]; rfl
    simp only [ctx, same]
    exact roles n
  case refine_12 =>
    have contexts : t.contexts = s.contexts := by rw [whole]
    rw [(same m).1, contexts]
    exact loads m
  all_goals rw [whole]; assumption

/-- Settles O54: each law of the quay by what a command keeps; then what the receivers keep. -/
theorem recordsOfTheQuayStayLawful : Obligations.RecordsOfTheQuayStayLawful :=
  ⟨fun _ _ h =>
    have kept := step_keepsQuay h
    ⟨kept.params, kept.zones, kept.vessels, kept.events, kept.heads⟩,
   fun _ bs lawful => State.receiveControl_lawful lawful bs,
   fun _ h bs => ⟨fun lawful => State.receiveHead_headsLawful lawful h bs,
    fun lawful => State.receiveHead_lawful lawful h bs⟩⟩

end Sys2Proof.Machine
end

section
/-! FLUSH (R171): the CANCELLED answers, the emptied records, the PLAN_CLEAR messages and the answer, as one equation. -/

namespace Sys2Proof.Machine

open Sys2Proof

/-! ## The CANCELLED answers (R39) -/

/-- R39: the channels of a list that are PARKED, but for the requesting one. -/
def State.parkedAmong (s : State) (ch : ChanNum) (l : List ChanNum) : List ChanNum :=
  l.filter fun c => decide (c ≠ ch ∧ (s.chan c).state = .parked)

/-- R39: each PARKED channel but the requesting one is answered CANCELLED, in ascending number. -/
theorem State.cancelParked_eq (s : State) (ch : ChanNum) :
    s.cancelParked ch = { s with
      controlTx := s.controlTx ++ (s.parkedAmong ch (List.finRange 4)).map fun c => ⟨c, fetchCode, .cancelled⟩ } := by
  unfold State.cancelParked
  generalize List.finRange 4 = l
  induction l generalizing s with
  | nil => simp [State.parkedAmong]
  | cons c l ih =>
    rw [List.foldl_cons, ih]
    by_cases parked : c ≠ ch ∧ (s.chan c).state = .parked
    · have first : s.parkedAmong ch (c :: l) = c :: s.parkedAmong ch l :=
        List.filter_cons_of_pos (decide_eq_true parked)
      have kept : (s.answer c fetchCode .cancelled).parkedAmong ch l = s.parkedAmong ch l := rfl
      rw [if_pos parked, first, kept, List.map_cons, List.append_cons]
      rfl
    · have first : s.parkedAmong ch (c :: l) = s.parkedAmong ch l :=
        List.filter_cons_of_neg (by rwa [decide_eq_true_eq])
      rw [if_neg parked, first]

/-! ## The PLAN_CLEAR messages (R141) -/

/-- R46, R141: PLAN_CLEAR is queued on the link of a head in service alone. -/
theorem State.sendPlanClear_eq (s : State) (h : HeadNum) :
    s.sendHead h .planClear = { s with
      headTx := if s.inService h then queueOn s.headTx h [.planClear] else s.headTx } := by
  by_cases inService : s.inService h = true
  · rw [State.sendHead_eq inService, if_pos inService]
  · unfold State.sendHead
    cases link : (s.headRec h).link <;> simp [State.inService, link, HeadMsg.allowedIn] at inService ⊢

theorem State.clearPlans_headTx (s : State) (h : HeadNum) :
    s.clearPlans.headTx[h] = s.headTx[h] ++ if s.inService h = true then [.planClear] else [] := by
  have among (l : List HeadNum) (once : l.Nodup) (s : State) :
      (l.foldl (fun s h => s.sendHead h .planClear) s).headTx[h] =
        s.headTx[h] ++ if h ∈ l ∧ s.inService h = true then [.planClear] else [] := by
    induction l generalizing s with
    | nil => simp
    | cons m l ih =>
      obtain ⟨fresh, once⟩ := List.nodup_cons.1 once
      rw [List.foldl_cons, ih once, State.sendHead_inService, State.sendPlanClear_eq]
      by_cases same : h = m
      · subst same
        by_cases inService : s.inService h = true <;> simp [inService, fresh, queueOn]
      · have apart : m.val ≠ h.val := fun e => same (Fin.ext e.symm)
        by_cases inService : s.inService m = true <;> simp [inService, same, apart, queueOn]
  have all := among (List.finRange 16) (List.nodup_finRange 16) s
  simp only [List.mem_finRange, true_and] at all
  exact all

theorem State.clearPlans_eq (s : State) :
    s.clearPlans = { s with
      headTx := Vector.ofFn fun h : HeadNum => s.headTx[h] ++ if s.inService h = true then [.planClear] else [] } := by
  have rest : s.clearPlans = { s with headTx := s.clearPlans.headTx } := by
    unfold State.clearPlans
    generalize List.finRange 16 = l
    induction l generalizing s with
    | nil => rfl
    | cons h l ih => rw [List.foldl_cons, ih, State.sendPlanClear_eq]
  have queues : s.clearPlans.headTx =
      Vector.ofFn fun h : HeadNum => s.headTx[h] ++ if s.inService h = true then [.planClear] else [] := by
    ext1 h hh
    rw [Vector.getElem_ofFn]
    exact s.clearPlans_headTx ⟨h, hh⟩
  exact rest.trans (by rw [queues])

/-! ## The one change (R22, R39, R65, R98, R117, R158) -/

/-- R39: every hold is dropped, and the requesting channel, BUSY meanwhile, is IDLE again when it is answered. -/
theorem State.flushed_channels {s : State} {ch : ChanNum} (idle : (s.chan ch).state = .idle) (c : ChanNum) :
    ((((s.setChanState ch .busy).emptied ch).setChanState ch .idle).chan c) =
      let kept : Channel := { s.chan c with held := none, holdAt := none }
      if c ≠ ch ∧ ((s.chan c).state = .parked ∨ (s.chan c).state = .sweeping) then
        { kept with state := .idle, parkedOn := none, parkAt := none, sweep := none, idleAt := none }
      else kept := by
  have emptied (t : State) (c : ChanNum) : (t.emptied ch).chan c = (t.chan c).flushed (decide (c = ch)) := by
    simp [State.emptied, State.chan]
  rw [State.setChanState_chan, emptied, emptied, State.setChanState_chan, State.setChanState_chan]
  by_cases own : ch = c
  · subst own
    simp [Channel.flushed, idle]
  · cases state : (s.chan c).state <;> simp [own, Ne.symm own, Channel.flushed, state]

theorem State.finish_channels_eq (s : State) (ch : ChanNum) (echo : Byte) (r : Reply) :
    (s.finish ch echo r).channels = (s.setChanState ch .idle).channels := rfl

theorem State.setChanState_channels_congr {s t : State} (same : t.channels = s.channels) (ch : ChanNum) (st : ChanState) :
    (t.setChanState ch st).channels = (s.setChanState ch st).channels := by
  simp only [State.setChanState, State.setChan, State.chan, same]

/-- Everything a FLUSH does on an IDLE channel. -/
theorem exec_flush {s : State} {ch : ChanNum} (ready : s.Ready ch) :
    exec (.flush ch (.fields ())) s = .next ((s.setChanState ch .busy).flushRequest ch) :=
  congrArg Host.Outcome.next (State.takeRequest_ready ready ..)

/-- Settles O52: the three parts of a FLUSH in their order, then the answer, field by field. -/
theorem flushEmptiesTheStore : Obligations.FlushEmptiesTheStore := by
  intro ch s ready
  rw [exec_flush ready]
  refine congrArg Host.Outcome.next ?_
  have table := State.flushed_channels ready.2
  have parked : (s.setChanState ch .busy).parkedAmong ch (List.finRange 4) = s.parkedAmong ch (List.finRange 4) := by
    refine List.filter_congr fun c _ => ?_
    rw [State.setChanState_chan]
    by_cases own : ch = c
    · simp [own]
    · simp [own, Ne.symm own]
  unfold State.flushRequest
  rw [State.clearPlans_eq, State.cancelParked_eq, parked]
  apply State.ext
  case channels =>
    ext1 c hc
    rw [Vector.getElem_ofFn, ← table ⟨c, hc⟩, State.finish_channels_eq, State.setChanState_channels_congr]
    · rfl
    · simp only [State.emptied]
  case headTx =>
    ext1 h hh
    simp only [State.emptied, State.inService, State.headRec, State.finish_headTx, Vector.getElem_ofFn, Fin.getElem_fin,
      Vector.getElem_map, State.setChanState_headTx, State.setChanState_heads]
    rfl
  case contexts =>
    ext1 n hn
    simp [State.emptied, State.ctx, Context.flushed]
    rfl
  case heads =>
    ext1 h hh
    simp [State.emptied, State.headRec]
  case freeList => simp only [State.finish_freeList, State.emptied]
  case plans => simp only [State.finish_plans, State.emptied, Plan.allFree]
  all_goals rfl

end Sys2Proof.Machine
end

section
/-! What each request answers (R159 to R162): one answer on its own channel, and beside it only answers to channels that
wait for a context. -/

namespace Sys2Proof.Machine

open Sys2Proof

/-! ## Operations that answer nothing -/

@[simp] theorem State.raiseHighest_controlTx (s : State) (c : EventClass) (n : Option CtxNum) :
    (s.raiseHighest c n).controlTx = s.controlTx := by
  cases n <;> rfl

@[simp] theorem State.withdraw_controlTx (s : State) (h : HeadNum) : (s.withdraw h).controlTx = s.controlTx := by
  simp [State.withdraw]

@[simp] theorem State.enterService_controlTx (s : State) (h : HeadNum) : (s.enterService h).controlTx = s.controlTx := by
  unfold State.enterService
  dsimp only
  split <;> simp

@[simp] theorem State.disableHead_controlTx (s : State) (h : HeadNum) : (s.disableHead h).controlTx = s.controlTx := by
  unfold State.disableHead
  dsimp only
  split <;> simp

@[simp] theorem State.enterActive_controlTx (s : State) (n : CtxNum) : (s.enterActive n).controlTx = s.controlTx := by
  unfold State.enterActive
  dsimp only
  split
  · rfl
  · split <;> rfl
  · rfl
  · rfl

@[simp] theorem State.withAdmitted_controlTx (s : State) (n : CtxNum) (c : Context) (id : Identity) (rest : List CtxNum)
    (h : HeadNum) (k : Nat) : (s.withAdmitted n c id rest h k).controlTx = s.controlTx := by
  unfold State.withAdmitted
  dsimp only
  split
  · rw [State.reserveActive, State.setSlots_controlTx]
    rfl
  · rfl

/-- R28: a field set that is applied leaves the answers and the wait lists as they are. -/
theorem State.applyFields_controlTx_waits (s : State) (n : CtxNum) (a : Applied) :
    (s.applyFields n a).controlTx = s.controlTx ∧ (s.applyFields n a).waits = s.waits := by
  have profile (s : State) : (s.writeProfile n a).controlTx = s.controlTx ∧ (s.writeProfile n a).waits = s.waits := by
    unfold State.writeProfile
    split
    · exact ⟨rfl, rfl⟩
    · dsimp only
      split
      · split <;> exact ⟨rfl, rfl⟩
      · exact ⟨rfl, rfl⟩
  have resized (s : State) (old new : Nat) :
      (s.resizeSlots n old new).controlTx = s.controlTx ∧ (s.resizeSlots n old new).waits = s.waits := by
    unfold State.resizeSlots State.reserveActive
    split
    · exact ⟨rfl, rfl⟩
    · dsimp only
      split
      · simp
      · split <;> simp
  have slots (s : State) : (s.writeSlotCount n a).controlTx = s.controlTx ∧ (s.writeSlotCount n a).waits = s.waits := by
    unfold State.writeSlotCount
    split
    · exact resized ..
    · exact ⟨rfl, rfl⟩
  unfold State.applyFields
  exact ⟨(slots _).1.trans (profile _).1, (slots _).2.trans (profile _).2⟩

/-! ## One answer to a request -/

/-- A channel that waits for a context: it is PARKED, or stands in a wait list (R23, R24). -/
def State.Waits (s : State) (c : ChanNum) : Prop := (s.chan c).state = .parked ∨ ∃ n, c ∈ s.wait n

/-- An answer that a request of another channel may bring about: to a channel that waits, and not CHANNEL_BUSY. -/
def State.Relieves (s : State) (a : Answer) : Prop := s.Waits a.channel ∧ a.reply ≠ .channelBusy

/-- The request with this code on channel ch has one answer, which is not CHANNEL_BUSY; every answer before or after it
relieves a channel that waits. -/
def State.Answers (s t : State) (ch : ChanNum) (code : Byte) : Prop :=
  ∃ before reply after, t.controlTx = s.controlTx ++ (before ++ ⟨ch, code, reply⟩ :: after) ∧ reply ≠ .channelBusy ∧
    ∀ a ∈ before ++ after, s.Relieves a

theorem State.Answers.of_single {s t : State} {ch : ChanNum} {code : Byte} {reply : Reply}
    (h : t.controlTx = s.controlTx ++ [⟨ch, code, reply⟩]) (taken : reply ≠ .channelBusy) : s.Answers t ch code :=
  ⟨[], reply, [], h, taken, by simp⟩

/-- A request whose owner answers nothing before its own answer, and nothing more. -/
theorem State.Answers.of_finish {s t : State} (same : t.controlTx = s.controlTx) {ch : ChanNum} {code : Byte}
    {reply : Reply} (taken : reply ≠ .channelBusy) : s.Answers (t.finish ch code reply) ch code :=
  .of_single (by rw [State.finish_controlTx, same]) taken

/-- R32: a hold that is handed on answers the FETCH of a channel of the wait list, if one waits. -/
theorem State.handOn_controlTx (s : State) (n : CtxNum) :
    ∃ granted, (s.handOn n).controlTx = s.controlTx ++ granted ∧
      ∀ a ∈ granted, a.channel ∈ s.wait n ∧ a.reply ≠ .channelBusy := by
  rcases s.handOn_cases n with ⟨-, h⟩ | ⟨c, rest, waiting, h⟩ <;> rw [h]
  · exact ⟨[], (List.append_nil _).symm, by simp⟩
  · refine ⟨_, State.answer_controlTx .., fun a ha => ?_⟩
    obtain rfl := List.mem_singleton.1 ha
    rw [waiting]
    exact ⟨List.mem_cons_self, nofun⟩

/-- A request that answers and then hands the hold on a context on. -/
theorem State.Answers.of_finish_handOn {s t : State} (same : t.controlTx = s.controlTx) (waits : t.waits = s.waits)
    {ch : ChanNum} {code : Byte} {reply : Reply} (taken : reply ≠ .channelBusy) (n : CtxNum) :
    s.Answers ((t.finish ch code reply).handOn n) ch code := by
  obtain ⟨granted, answers, relieved⟩ := (t.finish ch code reply).handOn_controlTx n
  refine ⟨[], reply, granted, ?_, taken, fun a ha => ?_⟩
  · rw [answers, State.finish_controlTx, same, List.append_assoc]
    rfl
  · obtain ⟨listed, grants⟩ := relieved a ha
    rw [State.wait, State.finish_waits, waits] at listed
    exact ⟨.inr ⟨n, listed⟩, grants⟩

/-! ## The Context Store -/

theorem State.admission_answers (s : State) (ch : ChanNum) (f : AdmitFields) :
    s.Answers (s.admission ch f) ch admitCode := by
  unfold State.admission
  split
  · split
    · exact .of_finish rfl nofun
    · split
      · exact .of_finish rfl nofun
      · split
        · exact .of_finish rfl nofun
        · split
          · exact .of_finish rfl nofun
          · split
            · exact .of_finish rfl nofun
            · split
              · exact .of_finish rfl nofun
              · split
                · exact .of_finish rfl nofun
                · rw [State.admitAccepted_eq]
                  exact .of_finish (by simp) nofun
  · exact .of_finish rfl nofun

/-- R17: the parked channels are answered GONE before the retirement is answered DONE. -/
theorem State.retirement_answers (s : State) (ch : ChanNum) (f : Half) :
    s.Answers (s.retirement ch f) ch retireCode := by
  unfold State.retirement
  split
  · exact .of_finish rfl nofun
  · next n _ =>
    split
    · exact .of_finish rfl nofun
    · split
      · exact .of_finish rfl nofun
      · have gone : (s.letGo n ch).controlTx = s.controlTx ++ (s.wait n).map fun p => ⟨p, fetchCode, .gone⟩ := by
          obtain ⟨x, letGo⟩ := s.letGo_eq n ch
          rw [letGo]
        have freed (t : State) : (t.freeRecord n).controlTx = t.controlTx := rfl
        refine ⟨(s.wait n).map fun p => ⟨p, fetchCode, .gone⟩, .done, [], ?_, nofun, fun a ha => ?_⟩
        · rw [State.finish_controlTx, freed, State.leaveQuay_eq]
          exact (congrArg (· ++ [_]) gone).trans (List.append_assoc ..)
        · rw [List.append_nil] at ha
          obtain ⟨c, listed, rfl⟩ := List.mem_map.1 ha
          exact ⟨.inr ⟨n, listed⟩, nofun⟩

theorem State.findRequest_answers (s : State) (ch : ChanNum) (id : Identity) :
    s.Answers (s.findRequest ch id) ch findCode := by
  unfold State.findRequest
  split <;> exact .of_finish rfl nofun

theorem State.readRequest_answers (s : State) (ch : ChanNum) (f : Half) :
    s.Answers (s.readRequest ch f) ch readCode := by
  unfold State.readRequest
  split
  · exact .of_finish rfl nofun
  · split <;> exact .of_finish rfl nofun

/-! ## Field sets and holds -/

/-- R27: a field set is refused with BAD_FIELD, STATE or NO_SLOTS. -/
theorem State.judge_refusal {s : State} {n : CtxNum} {set : FieldSet} {r : Reply} (h : s.judge n set = .error r) :
    r = .badField ∨ r = .state ∨ r = .noSlots := by
  cases cls : (s.ctx n).cls with
  | none =>
    simp only [State.judge, cls, if_true] at h
    cases h
    exact .inl rfl
  | some k =>
    simp only [State.judge, cls] at h
    split at h
    · cases h; exact .inl rfl
    · split at h
      · cases h
      · split at h
        · cases h; exact .inr (.inl rfl)
        · split at h
          · split at h
            · split at h
              · cases h; exact .inr (.inr rfl)
              · cases h
            · cases h
          · cases h

theorem State.judge_taken {s : State} {n : CtxNum} {set : FieldSet} {r : Reply} (h : s.judge n set = .error r) :
    r ≠ .channelBusy := by
  rcases State.judge_refusal h with rfl | rfl | rfl <;> nofun

theorem State.updateRequest_answers (s : State) (ch : ChanNum) (f : WriteFields) :
    s.Answers (s.updateRequest ch f) ch updateCode := by
  unfold State.updateRequest
  split
  · exact .of_finish rfl nofun
  · split
    · exact .of_finish rfl nofun
    · split
      · exact .of_finish rfl nofun
      · split
        · next refused => exact .of_finish rfl (State.judge_taken refused)
        · exact .of_finish (State.applyFields_controlTx_waits ..).1 nofun

/-- R30, R31: a FETCH is answered, or parks its channel with no answer. -/
theorem State.fetchRequest_answers (s : State) (ch : ChanNum) (f : Half) :
    s.Answers (s.fetchRequest ch f) ch fetchCode ∨
      (s.fetchRequest ch f).controlTx = s.controlTx ∧ ((s.fetchRequest ch f).chan ch).state = .parked := by
  unfold State.fetchRequest
  split
  · exact .inl (.of_finish rfl nofun)
  · split
    · exact .inl (.of_finish rfl nofun)
    · split
      · exact .inl (.of_finish rfl nofun)
      · split
        · refine .inl (.of_finish ?_ ?_)
          · rfl
          · nofun
        · exact .inr ⟨rfl, by simp [State.park]⟩

theorem State.storeRequest_answers (s : State) (ch : ChanNum) (f : WriteFields) :
    s.Answers (s.storeRequest ch f) ch storeCode := by
  unfold State.storeRequest
  split
  · exact .of_finish rfl nofun
  · next n _ =>
    split
    · exact .of_finish rfl nofun
    · split
      · next refused => exact .of_finish rfl (State.judge_taken refused)
      · next a _ =>
        obtain ⟨answers, waits⟩ := s.applyFields_controlTx_waits n a
        exact .of_finish_handOn (t := (s.applyFields n a).dropHold n ch) (reply := .doneFields a) answers waits nofun n

theorem State.releaseRequest_answers (s : State) (ch : ChanNum) (f : Half) :
    s.Answers (s.releaseRequest ch f) ch releaseCode := by
  unfold State.releaseRequest
  split
  · exact .of_finish rfl nofun
  · next n _ =>
    split
    · exact .of_finish rfl nofun
    · exact .of_finish_handOn (s := s) (t := s.dropHold n ch) (reply := .done) rfl rfl nofun n

/-! ## Sweeps -/

/-- R42, R43: a block is one answer. -/
theorem State.answerBlock_answers {s t : State} (same : t.controlTx = s.controlTx) (ch : ChanNum) (code : Byte)
    (w : Sweep) : s.Answers (t.answerBlock ch code w) ch code := by
  unfold State.answerBlock
  dsimp only
  split
  · exact .of_finish same nofun
  · refine .of_single (same ▸ State.answer_controlTx ..) ?_
    nofun

theorem State.sweepRequest_answers (s : State) (ch : ChanNum) (f : SweepFields) :
    s.Answers (s.sweepRequest ch f) ch sweepCode := by
  unfold State.sweepRequest
  split
  · exact .of_finish rfl nofun
  · exact State.answerBlock_answers rfl ..

/-! ## Heads and windows -/

theorem State.headSet_answers (s : State) (ch : ChanNum) (f : HeadSetFields) :
    s.Answers (s.headSet ch f) ch headSetCode := by
  unfold State.headSet
  split <;> exact .of_finish rfl nofun

theorem State.headEnable_answers (s : State) (ch : ChanNum) (f : Byte) :
    s.Answers (s.headEnable ch f) ch headEnableCode := by
  unfold State.headEnable
  split
  · exact .of_finish (by simp) nofun
  · exact .of_finish rfl nofun

theorem State.headDisable_answers (s : State) (ch : ChanNum) (f : Byte) :
    s.Answers (s.headDisable ch f) ch headDisableCode := by
  unfold State.headDisable
  split
  · exact .of_finish (by simp) nofun
  · exact .of_finish rfl nofun

theorem State.headRead_answers (s : State) (ch : ChanNum) (f : Byte) :
    s.Answers (s.headRead ch f) ch headReadCode := by
  unfold State.headRead
  split <;> exact .of_finish rfl nofun

theorem State.surveyRequest_answers (s : State) (ch : ChanNum) (f : SurveyFields) :
    s.Answers (s.surveyRequest ch f) ch surveyCode := by
  unfold State.surveyRequest
  split
  · dsimp only
    split
    · exact .of_finish rfl nofun
    · exact .of_finish rfl nofun
    all_goals exact .of_finish (by simp [State.startSurvey]) nofun
  · exact .of_finish rfl nofun

theorem State.zoneSet_answers (s : State) (ch : ChanNum) (f : ZoneSetFields) :
    s.Answers (s.zoneSet ch f) ch zoneSetCode := by
  unfold State.zoneSet
  split
  · split
    · exact .of_finish rfl nofun
    · split <;> exact .of_finish rfl nofun
  · exact .of_finish rfl nofun

theorem State.zoneRead_answers (s : State) (ch : ChanNum) (f : Byte) :
    s.Answers (s.zoneRead ch f) ch zoneReadCode := by
  unfold State.zoneRead
  split <;> exact .of_finish rfl nofun

theorem State.vesselSet_answers (s : State) (ch : ChanNum) (f : VesselSetFields) :
    s.Answers (s.vesselSet ch f) ch vesselSetCode := by
  unfold State.vesselSet
  split <;> exact .of_finish rfl nofun

theorem State.vesselRead_answers (s : State) (ch : ChanNum) (f : Byte) :
    s.Answers (s.vesselRead ch f) ch vesselReadCode := by
  unfold State.vesselRead
  split <;> exact .of_finish rfl nofun

theorem State.planRead_answers (s : State) (ch : ChanNum) (f : Byte) :
    s.Answers (s.planRead ch f) ch planReadCode := by
  unfold State.planRead
  split <;> exact .of_finish rfl nofun

/-! ## Parameters, events and FLUSH -/

theorem State.paramSet_answers (s : State) (ch : ChanNum) (f : ParamSetFields) :
    s.Answers (s.paramSet ch f) ch paramSetCode := by
  unfold State.paramSet
  split <;> exact .of_finish rfl nofun

theorem State.paramRead_answers (s : State) (ch : ChanNum) (f : ParamReadFields) :
    s.Answers (s.paramRead ch f) ch paramReadCode := by
  unfold State.paramRead
  split <;> exact .of_finish rfl nofun

theorem State.eventRead_answers (s : State) (ch : ChanNum) : s.Answers (s.eventRead ch) ch eventReadCode := by
  unfold State.eventRead
  split <;> exact .of_finish rfl nofun

theorem State.eventSetup_answers (s : State) (ch : ChanNum) (f : EventSetupFields) :
    s.Answers (s.eventSetup ch f) ch eventSetupCode := by
  unfold State.eventSetup
  split <;> exact .of_finish rfl nofun

/-- R39, R171: the PARKED channels are answered CANCELLED before the FLUSH is answered DONE. -/
theorem State.flushRequest_answers (s : State) (ch : ChanNum) : s.Answers (s.flushRequest ch) ch flushCode := by
  refine ⟨(s.parkedAmong ch (List.finRange 4)).map fun c => ⟨c, fetchCode, .cancelled⟩, .done, [], ?_, nofun,
    fun a ha => ?_⟩
  · unfold State.flushRequest
    rw [State.finish_controlTx, State.clearPlans_eq, State.cancelParked_eq]
    simp only [State.emptied, List.append_assoc]
  · rw [List.append_nil] at ha
    obtain ⟨c, listed, rfl⟩ := List.mem_map.1 ha
    obtain ⟨-, parked⟩ := of_decide_eq_true (List.mem_filter.1 listed).2
    exact ⟨.inl parked, nofun⟩

end Sys2Proof.Machine
end

section
/-! Everything a request frame can do (R159 to R161), said once; then the statements about requests and about the frames of
the control link that are no request. -/

namespace Sys2Proof.Machine

open Sys2Proof

/-! ## Everything a request can do -/

/-- What a request with this code on channel ch can do on a part that is not in reset. -/
inductive State.Takes (s : State) (i : Instr) (ch : ChanNum) (code : Byte) : State → Prop
  /-- R159: turned away. -/
  | turnedAway (away : i.takenIn (s.chan ch).state = false) : Takes s i ch code (s.answer ch code .channelBusy)
  /-- R160: refused for form. -/
  | refused (taken : i.takenIn (s.chan ch).state = true) (bad : i.badlyFormed = true) :
      Takes s i ch code (s.answer ch code .badField)
  /-- R161: answered once, on a channel that does not wait. -/
  | answered {t : State} (taken : i.takenIn (s.chan ch).state = true) (form : i.badlyFormed = false)
      (free : (s.chan ch).state ≠ .parked) (once : s.Answers t ch code) : Takes s i ch code t
  /-- R31: a FETCH that parks its channel. -/
  | parks {t : State} (taken : i.takenIn (s.chan ch).state = true) (form : i.badlyFormed = false)
      (fetch : code = fetchCode) (silent : t.controlTx = s.controlTx) (parked : (t.chan ch).state = .parked) :
      Takes s i ch code t
  /-- R37: a CANCEL that ends the FETCH of its PARKED channel. -/
  | cancels {t : State} (taken : i.takenIn (s.chan ch).state = true) (form : i.badlyFormed = false)
      (cancel : code = cancelCode) (parked : (s.chan ch).state = .parked)
      (once : t.controlTx = s.controlTx ++ [⟨ch, fetchCode, .cancelled⟩]) : Takes s i ch code t
  /-- A PARKED channel on no context, or a SWEEPING one without a sweep, which no run reaches (log 10). -/
  | stands (taken : i.takenIn (s.chan ch).state = true) (form : i.badlyFormed = false)
      (unlawful : ¬ (s.chan ch).Lawful) : Takes s i ch code s

/-- A payload that is refused for form. -/
def badBody {α : Type} : Body α → Bool
  | .fields _ => false
  | .badForm => true

/-- The channel that carries a request out is BUSY, and every other channel waits as it did. -/
theorem State.Answers.of_busy {s t : State} {ch : ChanNum} {code : Byte}
    (h : (s.setChanState ch .busy).Answers t ch code) : s.Answers t ch code := by
  obtain ⟨before, reply, after, answers, taken, relieved⟩ := h
  refine ⟨before, reply, after, answers, taken, fun a ha => ?_⟩
  obtain ⟨parked | listed, grants⟩ := relieved a ha
  · rw [State.setChanState_chan] at parked
    split at parked
    · cases parked
    · exact ⟨.inl parked, grants⟩
  · exact ⟨.inr listed, grants⟩

/-- R159: a request that neither a PARKED nor a SWEEPING channel takes is taken on an IDLE one alone. -/
theorem takenIn_iff_idle {i : Instr} (outside : i.takenIn .parked = false ∧ i.takenIn .sweeping = false) (st : ChanState) :
    i.takenIn st = true ↔ st = .idle := by
  obtain ⟨parked, sweeping⟩ := outside
  cases st
  case idle => exact iff_of_true rfl rfl
  case busy => exact iff_of_false nofun nofun
  case parked => exact iff_of_false (by simp [parked]) nofun
  case sweeping => exact iff_of_false (by simp [sweeping]) nofun

/-- A request that an IDLE channel alone takes, and whose owner answers it once or parks a FETCH. -/
theorem State.takeRequest_takes {α : Type} {i : Instr} {ch : ChanNum} {code : Byte} {s : State} (running : s.resetLow = false)
    (outside : i.takenIn .parked = false ∧ i.takenIn .sweeping = false) {b : Body α} (form : i.badlyFormed = badBody b)
    {run : α → State → State}
    (hrun : ∀ f s, State.Answers s (run f s) ch code ∨
      code = fetchCode ∧ (run f s).controlTx = s.controlTx ∧ ((run f s).chan ch).state = .parked) :
    s.Takes i ch code (s.takeRequest ch code b run) := by
  rw [State.takeRequest_cases, if_neg (by simp [running])]
  split
  · next idle =>
    have taken := (takenIn_iff_idle outside _).2 idle
    cases b with
    | badForm => exact .refused taken form
    | fields f =>
      rcases hrun f (s.setChanState ch .busy) with once | ⟨fetch, silent, parked⟩
      · exact .answered taken form (by rw [idle]; nofun) once.of_busy
      · exact .parks taken form fetch silent parked
  · next busy => exact .turnedAway (Bool.eq_false_iff.2 fun taken => busy ((takenIn_iff_idle outside _).1 taken))

/-- CONTINUE and STOP, which an IDLE and a SWEEPING channel take. -/
theorem State.takeOnSweeping_takes {i : Instr} {ch : ChanNum} {code : Byte} {s : State} (running : s.resetLow = false)
    (taken : ∀ st, i.takenIn st = true ↔ st = .idle ∨ st = .sweeping) {b : Body Unit} (form : i.badlyFormed = badBody b)
    {f : State → State}
    (hf : (s.chan ch).state = .sweeping → s.Answers (f s) ch code ∨ f s = s ∧ ¬ (s.chan ch).Lawful) :
    s.Takes i ch code (s.takeOnSweeping ch code b f) := by
  rw [State.takeOnSweeping_cases, if_neg (by simp [running])]
  split
  · next idle => exact .refused ((taken _).2 (.inl idle)) form
  · next idle => exact .answered ((taken _).2 (.inl idle)) form (by rw [idle]; nofun) (.of_single rfl nofun)
  · next sweeping => exact .refused ((taken _).2 (.inr sweeping)) form
  · next sweeping =>
    rcases hf sweeping with once | ⟨same, unlawful⟩
    · exact .answered ((taken _).2 (.inr sweeping)) form (by rw [sweeping]; nofun) once
    · rw [same]; exact .stands ((taken _).2 (.inr sweeping)) form unlawful
  · next busy => exact .turnedAway (Bool.eq_false_iff.2 fun h => by simpa [busy] using (taken _).1 h)
  · next parked => exact .turnedAway (Bool.eq_false_iff.2 fun h => by simpa [parked] using (taken _).1 h)

/-- R43: CONTINUE on a SWEEPING channel, which has a sweep (R23). -/
theorem State.continueRequest_answers (s : State) (ch : ChanNum) (sweeping : (s.chan ch).state = .sweeping) :
    s.Answers (s.continueRequest ch) ch continueCode ∨ s.continueRequest ch = s ∧ ¬ (s.chan ch).Lawful := by
  unfold State.continueRequest
  split
  · next w _ =>
    exact .inl (State.answerBlock_answers (s := s) (t := s.setChan ch { s.chan ch with state := .busy, idleAt := none })
      rfl ch continueCode w)
  · next none =>
    refine .inr ⟨rfl, fun ⟨_, _, _, _, sweep, _⟩ => ?_⟩
    simp [none, sweeping] at sweep

theorem State.stopRequest_answers (s : State) (ch : ChanNum) : s.Answers (s.stopRequest ch) ch stopCode :=
  .of_single rfl nofun

/-- R37, R160: CANCEL on each state of a channel; a PARKED one names the context it is parked on (R23). -/
theorem State.cancelRequest_takes (s : State) (ch : ChanNum) (b : Body Unit) :
    s.Takes (.cancel ch b) ch cancelCode (s.cancelRequest ch b) := by
  unfold State.cancelRequest
  split
  · next idle =>
    rw [State.busy_finish idle]
    exact .refused (by rw [idle]; rfl) rfl
  · next idle =>
    rw [State.busy_finish idle]
    exact .answered (by rw [idle]; rfl) rfl (by rw [idle]; nofun) (.of_single rfl nofun)
  · next parked => exact .refused (by rw [parked]; rfl) rfl
  · next parked =>
    have taken (b : Body Unit) : (Instr.cancel ch b).takenIn (s.chan ch).state = true := by rw [parked]; rfl
    split
    · exact .cancels (taken _) rfl rfl parked rfl
    · next none =>
      refine .stands (taken _) rfl fun ⟨_, _, parkedOn, _⟩ => ?_
      simp [none, parked] at parkedOn
  · next busy => exact .turnedAway (by rw [busy]; rfl)
  · next sweeping => exact .turnedAway (by rw [sweeping]; rfl)

/-- Everything a request frame can do on a part that is not in reset. -/
theorem exec_takes {i : Instr} {ch : ChanNum} {code : Byte} {s : State} (wf : i.wf = true)
    (request : i.request = some (ch, code)) (running : s.resetLow = false) :
    ∃ t, exec i s = .next t ∧ s.Takes i ch code t := by
  have owner {α : Type} {i : Instr} {ch : ChanNum} {code : Byte} {b : Body α} {run : α → State → State}
      (outside : i.takenIn .parked = false ∧ i.takenIn .sweeping = false) (form : i.badlyFormed = badBody b)
      (hrun : ∀ f s, State.Answers s (run f s) ch code) : s.Takes i ch code (s.takeRequest ch code b run) :=
    State.takeRequest_takes running outside form fun f s => .inl (hrun f s)
  cases i
  case admitReq ch b =>
    cases request; exact ⟨_, rfl, owner ⟨rfl, rfl⟩ (by cases b <;> rfl) fun f s => s.admission_answers ch f⟩
  case retire ch b =>
    cases request; exact ⟨_, rfl, owner ⟨rfl, rfl⟩ (by cases b <;> rfl) fun f s => s.retirement_answers ch f⟩
  case find ch b =>
    cases request; exact ⟨_, rfl, owner ⟨rfl, rfl⟩ (by cases b <;> rfl) fun f s => s.findRequest_answers ch f⟩
  case read ch b =>
    cases request; exact ⟨_, rfl, owner ⟨rfl, rfl⟩ (by cases b <;> rfl) fun f s => s.readRequest_answers ch f⟩
  case update ch b =>
    cases request; exact ⟨_, rfl, owner ⟨rfl, rfl⟩ (by cases b <;> rfl) fun f s => s.updateRequest_answers ch f⟩
  case store ch b =>
    cases request; exact ⟨_, rfl, owner ⟨rfl, rfl⟩ (by cases b <;> rfl) fun f s => s.storeRequest_answers ch f⟩
  case release ch b =>
    cases request; exact ⟨_, rfl, owner ⟨rfl, rfl⟩ (by cases b <;> rfl) fun f s => s.releaseRequest_answers ch f⟩
  case sweep ch b =>
    cases request; exact ⟨_, rfl, owner ⟨rfl, rfl⟩ (by cases b <;> rfl) fun f s => s.sweepRequest_answers ch f⟩
  case headSet ch b =>
    cases request; exact ⟨_, rfl, owner ⟨rfl, rfl⟩ (by cases b <;> rfl) fun f s => s.headSet_answers ch f⟩
  case headEnable ch b =>
    cases request; exact ⟨_, rfl, owner ⟨rfl, rfl⟩ (by cases b <;> rfl) fun f s => s.headEnable_answers ch f⟩
  case headDisable ch b =>
    cases request; exact ⟨_, rfl, owner ⟨rfl, rfl⟩ (by cases b <;> rfl) fun f s => s.headDisable_answers ch f⟩
  case headRead ch b =>
    cases request; exact ⟨_, rfl, owner ⟨rfl, rfl⟩ (by cases b <;> rfl) fun f s => s.headRead_answers ch f⟩
  case survey ch b =>
    cases request; exact ⟨_, rfl, owner ⟨rfl, rfl⟩ (by cases b <;> rfl) fun f s => s.surveyRequest_answers ch f⟩
  case zoneSet ch b =>
    cases request; exact ⟨_, rfl, owner ⟨rfl, rfl⟩ (by cases b <;> rfl) fun f s => s.zoneSet_answers ch f⟩
  case zoneRead ch b =>
    cases request; exact ⟨_, rfl, owner ⟨rfl, rfl⟩ (by cases b <;> rfl) fun f s => s.zoneRead_answers ch f⟩
  case vesselSet ch b =>
    cases request; exact ⟨_, rfl, owner ⟨rfl, rfl⟩ (by cases b <;> rfl) fun f s => s.vesselSet_answers ch f⟩
  case vesselRead ch b =>
    cases request; exact ⟨_, rfl, owner ⟨rfl, rfl⟩ (by cases b <;> rfl) fun f s => s.vesselRead_answers ch f⟩
  case planRead ch b =>
    cases request; exact ⟨_, rfl, owner ⟨rfl, rfl⟩ (by cases b <;> rfl) fun f s => s.planRead_answers ch f⟩
  case paramSet ch b =>
    cases request; exact ⟨_, rfl, owner ⟨rfl, rfl⟩ (by cases b <;> rfl) fun f s => s.paramSet_answers ch f⟩
  case paramRead ch b =>
    cases request; exact ⟨_, rfl, owner ⟨rfl, rfl⟩ (by cases b <;> rfl) fun f s => s.paramRead_answers ch f⟩
  case eventSetup ch b =>
    cases request; exact ⟨_, rfl, owner ⟨rfl, rfl⟩ (by cases b <;> rfl) fun f s => s.eventSetup_answers ch f⟩
  case eventRead ch b =>
    cases request; exact ⟨_, rfl, owner ⟨rfl, rfl⟩ (by cases b <;> rfl) fun _ s => s.eventRead_answers ch⟩
  case flush ch b =>
    cases request; exact ⟨_, rfl, owner ⟨rfl, rfl⟩ (by cases b <;> rfl) fun _ s => s.flushRequest_answers ch⟩
  case fetch ch b =>
    cases request
    exact ⟨_, rfl, State.takeRequest_takes running ⟨rfl, rfl⟩ (by cases b <;> rfl) fun f s =>
      (s.fetchRequest_answers ch f).imp_right fun ⟨silent, parked⟩ => ⟨rfl, silent, parked⟩⟩
  case cancel ch b =>
    cases request
    exact ⟨_, congrArg Host.Outcome.next (State.whileRunning_high running _), s.cancelRequest_takes ch b⟩
  case continueSweep ch b =>
    cases request
    exact ⟨_, rfl, State.takeOnSweeping_takes running (by intro st; cases st <;> simp [Instr.takenIn])
      (by cases b <;> rfl) (s.continueRequest_answers ch)⟩
  case stopSweep ch b =>
    cases request
    exact ⟨_, rfl, State.takeOnSweeping_takes running (by intro st; cases st <;> simp [Instr.takenIn])
      (by cases b <;> rfl) fun _ => .inl (s.stopRequest_answers ch)⟩
  case illegal ch code =>
    cases request
    refine ⟨_, if_neg (by simpa [Instr.wf] using wf), owner (b := .fields ()) ⟨rfl, rfl⟩ rfl fun _ s => ?_⟩
    exact .of_finish rfl nofun
  all_goals cases request

/-- R159: what is turned away is answered CHANNEL_BUSY and does nothing else. -/
theorem State.Takes.of_away {s t : State} {i : Instr} {ch : ChanNum} {code : Byte} (h : s.Takes i ch code t)
    (away : i.takenIn (s.chan ch).state = false) : t = s.answer ch code .channelBusy := by
  cases h with
  | turnedAway => rfl
  | refused taken | answered taken | parks taken | cancels taken | stands taken =>
    exact absurd (taken.symm.trans away) nofun

/-- R160: what is taken and refused for form is answered BAD_FIELD and does nothing else. -/
theorem State.Takes.of_bad {s t : State} {i : Instr} {ch : ChanNum} {code : Byte} (h : s.Takes i ch code t)
    (taken : i.takenIn (s.chan ch).state = true) (bad : i.badlyFormed = true) : t = s.answer ch code .badField := by
  cases h with
  | turnedAway away => exact absurd (taken.symm.trans away) nofun
  | refused => rfl
  | answered _ form | parks _ form | cancels _ form | stands _ form => exact absurd (bad.symm.trans form) nofun

/-- A request that is answered once answers no CHANNEL_BUSY. -/
theorem State.Answers.not_channelBusy {s t : State} {ch : ChanNum} {code : Byte} (h : s.Answers t ch code) :
    ∃ added, t.controlTx = s.controlTx ++ added ∧ ∀ a ∈ added, a.reply ≠ .channelBusy := by
  obtain ⟨before, reply, after, answers, proper, relieved⟩ := h
  refine ⟨_, answers, fun a ha => ?_⟩
  rcases List.mem_append.1 ha with ha | ha
  · exact (relieved a (List.mem_append_left _ ha)).2
  · rcases List.mem_cons.1 ha with rfl | ha
    · exact proper
    · exact (relieved a (List.mem_append_right _ ha)).2

/-- R23, R24: under the laws a channel that waits is PARKED. -/
theorem State.Waits.parked {s : State} {c : ChanNum} (waits : s.Waits c) (channels : s.ChannelsLawful)
    (holds : s.HoldsLawful) : (s.chan c).state = .parked := by
  rcases waits with parked | ⟨n, listed⟩
  · exact parked
  · obtain ⟨-, -, -, lists, -⟩ := holds
    obtain ⟨-, -, parkedOn, -⟩ := channels c
    exact parkedOn.1 (by rw [(lists n c).1 listed]; rfl)

/-- R161: on a channel that does not wait, the one answer is the only one. -/
theorem State.Answers.once {s t : State} {ch : ChanNum} {code : Byte} (h : s.Answers t ch code)
    (free : (s.chan ch).state ≠ .parked) (channels : s.ChannelsLawful) (holds : s.HoldsLawful) :
    ∃ added, t.controlTx = s.controlTx ++ added ∧ ∃ r, added.filter (fun a => a.channel = ch) = [⟨ch, code, r⟩] := by
  obtain ⟨before, reply, after, answers, -, relieved⟩ := h
  have elsewhere (l : List Answer) (hl : ∀ a ∈ l, s.Relieves a) : l.filter (fun a => a.channel = ch) = [] := by
    refine List.filter_eq_nil_iff.2 fun a ha own => free ?_
    rw [← of_decide_eq_true own]
    exact (hl a ha).1.parked channels holds
  refine ⟨_, answers, reply, ?_⟩
  rw [List.filter_append, List.filter_cons, if_pos (decide_eq_true rfl),
    elsewhere before fun a ha => relieved a (List.mem_append_left _ ha),
    elsewhere after fun a ha => relieved a (List.mem_append_right _ ha), List.nil_append]

/-! ## The statements about requests -/

/-- Settles O6: a request that is taken ends in no CHANNEL_BUSY, whatever it does. -/
theorem requestsAreTakenOrTurnedAway : Obligations.RequestsAreTakenOrTurnedAway := by
  intro i ch code s wf request running
  obtain ⟨t, next, takes⟩ := exec_takes wf request running
  refine ⟨fun away => by rw [next, takes.of_away away], fun taken => ⟨t, ?_⟩⟩
  cases takes with
  | turnedAway away => exact absurd (taken.symm.trans away) nofun
  | refused => exact ⟨_, next, rfl, by simp⟩
  | answered _ _ _ once =>
    obtain ⟨added, answers, proper⟩ := once.not_channelBusy
    exact ⟨added, next, answers, proper⟩
  | parks _ _ _ silent => exact ⟨[], next, by simp [silent], by simp⟩
  | cancels _ _ _ _ once => exact ⟨_, next, once, by simp⟩
  | stands => exact ⟨[], next, by simp, by simp⟩

/-- Settles O8: by what the request does; under the laws the last case does not arise. -/
theorem everyRequestIsAnsweredOnce : Obligations.EveryRequestIsAnsweredOnce := by
  intro i ch code s wf request running channels holds
  obtain ⟨t, next, takes⟩ := exec_takes wf request running
  cases takes with
  | turnedAway => exact ⟨_, [⟨ch, code, .channelBusy⟩], next, rfl, .inl ⟨.channelBusy, by simp⟩⟩
  | refused => exact ⟨_, [⟨ch, code, .badField⟩], next, rfl, .inl ⟨.badField, by simp⟩⟩
  | answered _ _ free once =>
    obtain ⟨added, answers, only⟩ := once.once free channels holds
    exact ⟨t, added, next, answers, .inl only⟩
  | parks _ _ fetch silent parked => exact ⟨t, [], next, by simp [silent], .inr (.inl ⟨fetch, rfl, parked⟩)⟩
  | cancels _ _ cancel parked once => exact ⟨t, _, next, once, .inr (.inr ⟨cancel, parked, rfl⟩)⟩
  | stands _ _ unlawful => exact absurd (channels ch) unlawful

/-- A command refused for form is a request of the part. -/
theorem wf_of_badlyFormed {i : Instr} (bad : i.badlyFormed = true) : i.wf = true := by
  cases i
  case illegal | channelDiscard => cases bad
  all_goals rfl

theorem exec_illegal_known {code : Byte} (known : code ∈ Instr.requestCodes) (ch : ChanNum) (s : State) :
    exec (.illegal ch code) s = .refused .illFormed :=
  if_pos (List.contains_iff_mem.2 known)

/-- R159, R160: an unknown code, on an IDLE channel and on any other. -/
theorem exec_illegal_unknown {code : Byte} (unknown : code ∉ Instr.requestCodes) {s : State} (running : s.resetLow = false)
    (ch : ChanNum) : exec (.illegal ch code) s =
      .next (s.answer ch code (if (s.chan ch).state = .idle then .illegal else .channelBusy)) := by
  refine (if_neg fun known => unknown (List.contains_iff_mem.1 known)).trans (congrArg Host.Outcome.next ?_)
  rw [State.takeRequest_cases, if_neg (by simp [running])]
  split
  · next idle => exact State.busy_finish idle ..
  · rfl

/-- R176, R177: a frame with a channel and no code. -/
theorem exec_noCode {s : State} (running : s.resetLow = false) (ch : ChanNum) :
    exec (.noCodeRequestFrame ch) s = .next (if (s.chan ch).state = .idle then s.answer ch 0x00 .badField
      else { s.answer ch (Config.noCodeBusyEcho s.openValues) .channelBusy with openValues := s.openValues + 1 }) := by
  refine congrArg Host.Outcome.next ((State.whileRunning_high running _).trans ?_)
  cases state : (s.chan ch).state
  case idle => exact State.busy_finish state ..
  all_goals rfl

/-- Settles O7: a badly formed request by what a request does; then each frame that is no request. -/
theorem refusalsForFormChangeNothing : Obligations.RefusalsForFormChangeNothing := by
  refine ⟨fun i ch code s request bad running taken => ?_, fun ch code s unknown running => ?_, fun _ _ => rfl,
    fun ch s running => exec_noCode running ch, fun b s high => if_pos high, fun b s low => if_neg (by omega),
    fun ch code s known => exec_illegal_known known ch s⟩
  · obtain ⟨t, next, takes⟩ := exec_takes (wf_of_badlyFormed bad) request running
    rw [next, takes.of_bad taken bad]
  · exact exec_illegal_unknown unknown running ch

/-! ## Every command -/

/-- Settles O3: two commands have terms that are no frames; every other is carried out in every state. -/
theorem everyCommandHasANextState : Obligations.EveryCommandHasANextState := by
  intro i s wf
  cases i
  case illegal ch code => exact ⟨_, if_neg (by simpa [Instr.wf] using wf)⟩
  case channelDiscard b => exact ⟨s, if_pos (of_decide_eq_true wf)⟩
  all_goals exact ⟨_, rfl⟩

/-- R170: no request is taken while RESET_N is low. -/
theorem State.takeRequest_low {α : Type} {s : State} (low : s.resetLow = true) (ch : ChanNum) (code : Byte) (b : Body α)
    (run : α → State → State) : s.takeRequest ch code b run = s := State.whileRunning_low low _

theorem State.takeOnSweeping_low {s : State} (low : s.resetLow = true) (ch : ChanNum) (code : Byte) (b : Body Unit)
    (f : State → State) : s.takeOnSweeping ch code b f = s := State.whileRunning_low low _

/-- R170: a command but the two of the pin changes nothing while RESET_N is low: requests, then frames and expiries. -/
theorem exec_low {i : Instr} {s : State} (low : s.resetLow = true) (wf : i.wf = true) (notAssert : i ≠ .resetAssert)
    (notRelease : i ≠ .resetRelease) : exec i s = .next s := by
  have request {α : Type} (ch : ChanNum) (code : Byte) (b : Body α) (run : α → State → State) :
      Host.Outcome.next (φ := Fault) (ρ := Refusal) (s.takeRequest ch code b run) = .next s :=
    congrArg _ (State.takeRequest_low low ..)
  have sweeping (ch : ChanNum) (code : Byte) (b : Body Unit) (f : State → State) :
      Host.Outcome.next (φ := Fault) (ρ := Refusal) (s.takeOnSweeping ch code b f) = .next s :=
    congrArg _ (State.takeOnSweeping_low low ..)
  have running (f : State → State) : Host.Outcome.next (φ := Fault) (ρ := Refusal) (s.whileRunning f) = .next s :=
    congrArg _ (State.whileRunning_low low f)
  cases i
  case resetAssert => exact absurd rfl notAssert
  case resetRelease => exact absurd rfl notRelease
  case frameDiscard => rfl
  case channelDiscard b => exact if_pos (of_decide_eq_true wf)
  case illegal ch code => exact (if_neg (by simpa [Instr.wf] using wf)).trans (request ..)
  case continueSweep | stopSweep => exact sweeping ..
  case admitReq | retire | find | read | update | fetch | store | release | sweep | headSet | headEnable | headDisable |
      headRead | survey | zoneSet | zoneRead | vesselSet | vesselRead | planRead | paramSet | paramRead | eventRead |
      eventSetup | flush =>
    exact request ..
  case cancel | keepalive | arrival | report | malformedHeadFrame | holdExpiry | parkDeadline | idleDeadline | linkLoss |
      settleDeadline | surveyEndTime | lossDeadline | orphanDeadline | confirmationDeadline | staleDeadline | dueExpiry |
      partClockTick | noCodeRequestFrame =>
    exact running _

/-- Settles O5: commands, then the two receivers, then the output. -/
theorem nothingIsTakenWhileResetIsLow : Obligations.NothingIsTakenWhileResetIsLow :=
  fun s low => ⟨fun _ wf notAssert notRelease => exec_low low wf notAssert notRelease,
    fun _ => State.whileRunning_low low _, fun _ _ => State.whileRunning_low low _, by simp [State.attn, low]⟩

end Sys2Proof.Machine
end

section
/-! Parameters (R163, R164): the bytes that name a selector, and the two requests. -/

namespace Sys2Proof.Machine

open Sys2Proof

theorem classOf_eq_some_iff (b : Byte) (c : TermClass) : classOf b = some c ↔ b = c.byte := by
  constructor
  · intro h
    unfold classOf at h
    split at h
    · next n => cases h; exact BitVec.eq_of_toNat_eq n
    · next n => cases h; exact BitVec.eq_of_toNat_eq n
    · next n => cases h; exact BitVec.eq_of_toNat_eq n
    · cases h
  · rintro rfl
    cases c <;> rfl

theorem perClassSel_eq_some_iff (p : ClassParam) (cls : Byte) (sel : ParamSel) :
    perClassSel p cls = some sel ↔ ∃ c, cls = TermClass.byte c ∧ sel = .perClass p c := by
  simp only [perClassSel, Option.map_eq_some_iff, classOf_eq_some_iff]
  exact exists_congr fun c => and_congr_right fun _ => eq_comm

theorem singleSel_eq_some_iff (p : SingleParam) (cls : Byte) (sel : ParamSel) :
    singleSel p cls = some sel ↔ cls = 0xFF ∧ sel = .single p := by
  unfold singleSel
  split <;> simp_all [eq_comm]

/-- R177: a selector is read from its own two bytes. -/
theorem paramOf_bytes (sel : ParamSel) : paramOf sel.byte sel.classByte = some sel := by
  rcases sel with ⟨p, c⟩ | p
  · cases p <;> cases c <;> rfl
  · cases p <;> rfl

/-- R177: two bytes name at most the selector they are the bytes of. -/
theorem bytes_of_paramOf {parameter cls : Byte} {sel : ParamSel} (h : paramOf parameter cls = some sel) :
    parameter = sel.byte ∧ cls = sel.classByte := by
  have perClass {p : ClassParam} {b : Byte} (byte : ∀ c, (ParamSel.perClass p c).byte = b) (named : parameter = b)
      (h : perClassSel p cls = some sel) : parameter = sel.byte ∧ cls = sel.classByte := by
    obtain ⟨c, rfl, rfl⟩ := (perClassSel_eq_some_iff ..).1 h
    exact ⟨named.trans (byte c).symm, rfl⟩
  have single {p : SingleParam} {b : Byte} (byte : (ParamSel.single p).byte = b) (named : parameter = b)
      (h : singleSel p cls = some sel) : parameter = sel.byte ∧ cls = sel.classByte := by
    obtain ⟨rfl, rfl⟩ := (singleSel_eq_some_iff ..).1 h
    exact ⟨named.trans byte.symm, rfl⟩
  unfold paramOf at h
  split at h
  case h_12 => cases h
  case h_1 n => exact perClass (b := 0) (fun _ => rfl) (BitVec.eq_of_toNat_eq n) h
  case h_2 n => exact perClass (b := 1) (fun _ => rfl) (BitVec.eq_of_toNat_eq n) h
  case h_3 n => exact perClass (b := 2) (fun _ => rfl) (BitVec.eq_of_toNat_eq n) h
  case h_4 n => exact perClass (b := 3) (fun _ => rfl) (BitVec.eq_of_toNat_eq n) h
  case h_5 n => exact perClass (b := 4) (fun _ => rfl) (BitVec.eq_of_toNat_eq n) h
  case h_6 n => exact single (b := 5) rfl (BitVec.eq_of_toNat_eq n) h
  case h_7 n => exact single (b := 6) rfl (BitVec.eq_of_toNat_eq n) h
  case h_8 n => exact single (b := 7) rfl (BitVec.eq_of_toNat_eq n) h
  case h_9 n => exact single (b := 8) rfl (BitVec.eq_of_toNat_eq n) h
  case h_10 n => exact single (b := 9) rfl (BitVec.eq_of_toNat_eq n) h
  case h_11 n => exact single (b := 10) rfl (BitVec.eq_of_toNat_eq n) h

/-- R164: a pair of bytes that names no parameter. -/
theorem exec_param_unnamed {s : State} {ch : ChanNum} (ready : s.Ready ch) {parameter cls : Byte}
    (unnamed : paramOf parameter cls = none) (v : BitVec 32) :
    exec (.paramSet ch (.fields ⟨parameter, cls, v⟩)) s = .next (s.answer ch paramSetCode .badField) ∧
      exec (.paramRead ch (.fields ⟨parameter, cls⟩)) s = .next (s.answer ch paramReadCode .badField) :=
  ⟨congrArg Host.Outcome.next (State.takeRequest_answer ready (by simp only [State.paramSet, unnamed])),
    congrArg Host.Outcome.next (State.takeRequest_answer ready (by simp only [State.paramRead, unnamed]))⟩

/-- R164: the value is clamped, stored and answered. -/
theorem exec_paramSet {s : State} {ch : ChanNum} (ready : s.Ready ch) {parameter cls : Byte} {sel : ParamSel}
    (named : paramOf parameter cls = some sel) (v : BitVec 32) :
    exec (.paramSet ch (.fields ⟨parameter, cls, v⟩)) s =
      .next ({ s with params := s.params.put sel (clamp sel.range.1 sel.range.2 v.toNat) }.answer ch paramSetCode
        (.value sel (clamp sel.range.1 sel.range.2 v.toNat))) := by
  refine congrArg Host.Outcome.next ((State.takeRequest_ready ready ..).trans ?_)
  simp only [State.paramSet, named]
  exact State.finish_of_busy
    (t := { s.setChanState ch .busy with params := s.params.put sel (clamp sel.range.1 sel.range.2 v.toNat) })
    ready.2 rfl ..

theorem exec_paramRead {s : State} {ch : ChanNum} (ready : s.Ready ch) {parameter cls : Byte} {sel : ParamSel}
    (named : paramOf parameter cls = some sel) :
    exec (.paramRead ch (.fields ⟨parameter, cls⟩)) s =
      .next (s.answer ch paramReadCode (.value sel (s.params.get sel))) := by
  refine congrArg Host.Outcome.next (State.takeRequest_answer ready ?_)
  simp only [State.paramRead, named, State.setChanState_params]

/-- Settles O49: the table of R163 by evaluation; the bytes, the stores and the two requests by their lemmas. -/
theorem parametersAreClamped : Obligations.ParametersAreClamped := by
  refine ⟨rfl, rfl, fun parameter cls sel => ⟨bytes_of_paramOf, ?_⟩, Params.get_put, fun ch parameter cls v s ready =>
    ⟨fun unnamed => exec_param_unnamed ready unnamed v, fun sel named => ⟨exec_paramSet ready named v,
      exec_paramRead ready named⟩⟩⟩
  rintro ⟨rfl, rfl⟩
  exact paramOf_bytes sel

end Sys2Proof.Machine
end

section
/-! Events (R165 to R168): the class that EVENT_READ chooses, the two requests and the ATTN output; the part clock
(R169). -/

namespace Sys2Proof.Machine

open Sys2Proof

/-! ## The classes and their numbers -/

theorem EventClass.mem_all (c : EventClass) : c ∈ EventClass.all := by
  cases c <;> decide

theorem EventClass.all_ascending : EventClass.all.Pairwise (fun c d => c.num < d.num) := by decide

theorem EventClass.exists_num (i : Fin 9) : ∃ c : EventClass, c.num = i := by
  have all : ∀ i : Fin 9, ∃ c ∈ EventClass.all, c.num = i := by decide
  obtain ⟨c, -, named⟩ := all i
  exact ⟨c, named⟩

theorem eventOf_num {b : Byte} {c : EventClass} (named : b.toNat = c.num.val) : eventOf b = some c := by
  obtain rfl : b = BitVec.ofNat 8 c.num.val := by rw [← named, BitVec.ofNat_toNat, BitVec.setWidth_eq]
  cases c <;> rfl

theorem eventOf_eq_none {b : Byte} (h : 8 < b.toNat) : eventOf b = none := by
  unfold eventOf
  split
  case h_10 => rfl
  all_goals omega

/-! ## The class that EVENT_READ chooses (R167) -/

/-- R167: a class that is pending and unmasked. -/
def State.Offered (s : State) (c : EventClass) : Prop := (s.eventRec c).pending = true ∧ (s.eventRec c).masked = false

/-- R167: the class with the lower level, the lower number among equals. -/
def State.ReadBefore (s : State) (c d : EventClass) : Prop :=
  (s.eventRec c).level < (s.eventRec d).level ∨ (s.eventRec c).level = (s.eventRec d).level ∧ c.num ≤ d.num

theorem State.ReadBefore.antisymm {s : State} {c d : EventClass} (h : s.ReadBefore c d) (h' : s.ReadBefore d c) :
    c = d := by
  unfold State.ReadBefore at h h'
  exact EventClass.num_inj.1 (by omega)

theorem State.ReadBefore.trans {s : State} {c d e : EventClass} (h : s.ReadBefore c d) (h' : s.ReadBefore d e) :
    s.ReadBefore c e := by
  unfold State.ReadBefore at *
  omega

/-- R167: the answer of a choice among some classes: none of them is offered, or the one that is read before all. -/
def State.FirstToRead (s : State) (seen : List EventClass) : Option EventClass → Prop
  | none => ∀ d ∈ seen, ¬ s.Offered d
  | some c => c ∈ seen ∧ s.Offered c ∧ ∀ d ∈ seen, s.Offered d → s.ReadBefore c d

/-- The choice between the best class so far and the next one of the list. -/
def State.readNext (s : State) (best : Option EventClass) (c : EventClass) : Option EventClass :=
  let r := s.eventRec c
  if r.pending && !r.masked then
    match best with
    | none => some c
    | some b => if r.level < (s.eventRec b).level then some c else some b
  else best

theorem State.chosenEvent_eq (s : State) : s.chosenEvent = EventClass.all.foldl s.readNext none := rfl

theorem State.readNext_of_not_offered {s : State} {c : EventClass} (h : ¬ s.Offered c) (best : Option EventClass) :
    s.readNext best c = best :=
  if_neg (by simpa [State.Offered] using h)

theorem State.readNext_of_offered {s : State} {c : EventClass} (h : s.Offered c) (best : Option EventClass) :
    s.readNext best c =
      best.elim (some c) fun b => if (s.eventRec c).level < (s.eventRec b).level then some c else some b := by
  obtain ⟨pending, unmasked⟩ := h
  have offered : ((s.eventRec c).pending && !(s.eventRec c).masked) = true := by simp [pending, unmasked]
  cases best <;> exact if_pos offered

theorem State.FirstToRead.readNext {s : State} {seen : List EventClass} {best : Option EventClass}
    (first : s.FirstToRead seen best) {c : EventClass} (later : ∀ d ∈ seen, d.num < c.num) :
    s.FirstToRead (seen ++ [c]) (s.readNext best c) := by
  by_cases offered : s.Offered c
  · rw [State.readNext_of_offered offered]
    have self : s.ReadBefore c c := .inr ⟨rfl, Nat.le_refl _⟩
    cases best with
    | none =>
      refine ⟨by simp, offered, fun d hd offered => ?_⟩
      rcases List.mem_append.1 hd with old | new
      · exact absurd offered (first d old)
      · rwa [List.mem_singleton.1 new]
    | some b =>
      obtain ⟨known, bOffered, before⟩ := first
      rw [Option.elim_some]
      split
      · next lower =>
        refine ⟨by simp, offered, fun d hd offered => ?_⟩
        rcases List.mem_append.1 hd with old | new
        · exact .trans (.inl lower) (before d old offered)
        · rwa [List.mem_singleton.1 new]
      · next notLower =>
        have ahead : s.ReadBefore b c :=
          (Nat.lt_or_eq_of_le (Nat.not_lt.1 notLower)).imp id fun same => ⟨same, Nat.le_of_lt (later b known)⟩
        refine ⟨List.mem_append_left _ known, bOffered, fun d hd offered => ?_⟩
        rcases List.mem_append.1 hd with old | new
        · exact before d old offered
        · rwa [List.mem_singleton.1 new]
  · rw [State.readNext_of_not_offered offered]
    have old {d : EventClass} (hd : d ∈ seen ++ [c]) (shown : s.Offered d) : d ∈ seen := by
      rcases List.mem_append.1 hd with old | new
      · exact old
      · exact absurd (List.mem_singleton.1 new ▸ shown) offered
    cases best with
    | none => exact fun d hd shown => first d (old hd shown) shown
    | some b =>
      obtain ⟨known, bOffered, before⟩ := first
      exact ⟨List.mem_append_left _ known, bOffered, fun d hd shown => before d (old hd shown) shown⟩

theorem State.FirstToRead.foldl {s : State} {l seen : List EventClass} {best : Option EventClass}
    (first : s.FirstToRead seen best) (ascending : (seen ++ l).Pairwise (fun c d => c.num < d.num)) :
    s.FirstToRead (seen ++ l) (l.foldl s.readNext best) := by
  induction l generalizing seen best with
  | nil => simpa using first
  | cons c l ih =>
    obtain ⟨-, -, across⟩ := List.pairwise_append.1 ascending
    rw [List.append_cons] at ascending ⊢
    exact ih (first.readNext fun d hd => across d hd c List.mem_cons_self) ascending

theorem State.chosenEvent_first (s : State) : s.FirstToRead EventClass.all s.chosenEvent :=
  State.FirstToRead.foldl (seen := []) (best := none) (s := s) nofun EventClass.all_ascending

theorem State.chosenEvent_eq_none {s : State} (h : ∀ c, ¬ s.Offered c) : s.chosenEvent = none := by
  have first := s.chosenEvent_first
  cases chosen : s.chosenEvent with
  | none => rfl
  | some c =>
    rw [chosen] at first
    obtain ⟨-, offered, -⟩ := first
    exact absurd offered (h c)

theorem State.chosenEvent_eq_some {s : State} {c : EventClass} (offered : s.Offered c)
    (before : ∀ d, s.Offered d → s.ReadBefore c d) : s.chosenEvent = some c := by
  have first := s.chosenEvent_first
  cases chosen : s.chosenEvent with
  | none =>
    rw [chosen] at first
    exact absurd offered (first c c.mem_all)
  | some d =>
    rw [chosen] at first
    obtain ⟨-, dOffered, ahead⟩ := first
    rw [(ahead c c.mem_all offered).antisymm (before d dOffered)]

/-! ## The requests (R167, R168) -/

theorem exec_eventRead_none {s : State} {ch : ChanNum} (ready : s.Ready ch) (h : ∀ c, ¬ s.Offered c) :
    exec (.eventRead ch (.fields ())) s = .next (s.answer ch eventReadCode (.noEvent s.clock)) := by
  refine congrArg Host.Outcome.next (State.takeRequest_answer ready ?_)
  have none : (s.setChanState ch .busy).chosenEvent = none := State.chosenEvent_eq_none h
  simp only [State.eventRead, none, State.setChanState_clock]

theorem exec_eventRead_some {s : State} {ch : ChanNum} (ready : s.Ready ch) {c : EventClass} (offered : s.Offered c)
    (before : ∀ d, s.Offered d → s.ReadBefore c d) :
    exec (.eventRead ch (.fields ())) s = .next ({ s with
      events := s.events.set c.num { s.eventRec c with pending := false } }.answer ch eventReadCode
        (.event c (s.eventRec c).subject s.clock)) := by
  refine congrArg Host.Outcome.next ((State.takeRequest_ready ready ..).trans ?_)
  have chosen : (s.setChanState ch .busy).chosenEvent = some c := State.chosenEvent_eq_some offered before
  simp only [State.eventRead, chosen, State.setChanState_clock, State.setChanState_eventRec]
  exact State.finish_of_busy (t := (s.setChanState ch .busy).setEvent c { s.eventRec c with pending := false })
    ready.2 rfl ..

/-- R168: a class number or a mark that names nothing. -/
theorem exec_eventSetup_unnamed {s : State} {ch : ChanNum} (ready : s.Ready ch) {f : EventSetupFields}
    (unnamed : eventOf f.cls = none ∨ markOf f.masked = none) :
    exec (.eventSetup ch (.fields f)) s = .next (s.answer ch eventSetupCode .badField) := by
  refine congrArg Host.Outcome.next (State.takeRequest_answer ready ?_)
  rw [State.eventSetup]
  split
  · next cls mark => simp [cls, mark] at unnamed
  · rfl

/-- R168: the level is clamped and stored with the mark. -/
theorem exec_eventSetup_named {s : State} {ch : ChanNum} (ready : s.Ready ch) {f : EventSetupFields} {c : EventClass}
    {masked : Bool} (cls : eventOf f.cls = some c) (mark : markOf f.masked = some masked) :
    exec (.eventSetup ch (.fields f)) s = .next ({ s with
      events := s.events.set c.num { s.eventRec c with level := min 7 f.level.toNat, masked := masked } }.answer
        ch eventSetupCode (.doneEvent c (min 7 f.level.toNat) masked)) := by
  have level : clamp 0 7 f.level.toNat = min 7 f.level.toNat := Nat.zero_max _
  refine congrArg Host.Outcome.next ((State.takeRequest_ready ready ..).trans ?_)
  simp only [State.eventSetup, cls, mark, level, State.setChanState_eventRec]
  exact State.finish_of_busy (t := (s.setChanState ch .busy).setEvent c
    { s.eventRec c with level := min 7 f.level.toNat, masked := masked }) ready.2 rfl ..

/-! ## The ATTN output (R166, R170) -/

theorem State.attn_iff (s : State) : s.attn = true ↔ s.resetLow = false ∧ ∃ c, s.Offered c := by
  simp only [State.attn, Bool.and_eq_true, Bool.not_eq_true', List.any_eq_true, mem_table]
  refine and_congr_right fun _ => ⟨?_, ?_⟩
  · rintro ⟨_, ⟨i, rfl⟩, offered⟩
    obtain ⟨c, rfl⟩ := EventClass.exists_num i
    exact ⟨c, offered⟩
  · rintro ⟨c, offered⟩
    exact ⟨_, ⟨c.num, rfl⟩, offered⟩

/-- Settles O50: what EVENT_READ chooses is the first class in the order of R167, by the fold over the classes. -/
theorem eventsAreReadByLevel : Obligations.EventsAreReadByLevel := by
  refine ⟨fun _ _ _ => rfl, fun _ _ _ => ⟨rfl, EventClass.num_inj.1⟩, State.attn_iff, fun ch s ready =>
    ⟨exec_eventRead_none ready, fun c => exec_eventRead_some ready⟩, fun ch f s ready => ⟨fun bad => ?_,
    fun c masked cls mark => ?_⟩⟩
  · exact exec_eventSetup_unnamed ready (bad.imp eventOf_eq_none markOf_eq_none)
  · exact exec_eventSetup_named ready (eventOf_num cls) (mark ▸ markOf_mark masked)

/-! ## The part clock (R169) -/

theorem exec_partClockTick {s : State} (high : s.resetLow = false) :
    exec .partClockTick s = .next { s with clock := s.clock + 1 } :=
  congrArg Host.Outcome.next (if_neg (by simp [high]))

/-- R169: the second time less the first, modulo 2^32. -/
theorem toNat_elapsed (a b : Time) : (b - a).toNat = (b.toNat + 2 ^ 32 - a.toNat) % 2 ^ 32 := by
  have := a.isLt
  rw [BitVec.toNat_sub]
  omega

theorem elapsed_pos_iff (a b : Time) : 0 < (b - a).toNat ↔ a ≠ b := by
  have := a.isLt
  have := b.isLt
  rw [toNat_elapsed, ne_eq, ← BitVec.toNat_inj]
  omega

/-- Settles O51, by the arithmetic of 32-bit words. -/
theorem clockAndDeadlines : Obligations.ClockAndDeadlines := by
  refine ⟨fun s high => ⟨_, exec_partClockTick high, rfl, BitVec.toNat_add ..⟩, fun t ms => ?_, fun now deadline => ?_,
    fun now => ⟨rfl, fun d => rfl⟩, fun a b => ?_⟩
  · simp [after]
  · rw [reached, decide_eq_true_eq, toNat_elapsed]
  · rw [earlier, decide_eq_true_eq, elapsed_pos_iff, toNat_elapsed]

end Sys2Proof.Machine
end

section
/-! The state after a reset (R170): each field as its own rule gives it, and every law of the device on it. -/

namespace Sys2Proof.Machine

open Sys2Proof

/-! ## Every record after a reset -/

theorem State.reset_wait (n : CtxNum) : State.reset.wait n = [] := by simp [State.wait, State.reset]

theorem State.reset_chan (ch : ChanNum) : State.reset.chan ch = Channel.reset := by simp [State.chan, State.reset]

theorem State.reset_headRec (h : HeadNum) : State.reset.headRec h = Head.reset := by simp [State.headRec, State.reset]

theorem State.reset_plan (h : HeadNum) : State.reset.plan h = Plan.allFree := by simp [State.plan, State.reset]

theorem Plan.allFree_get (i : SlotNum) : Plan.allFree[i] = .free := by simp [Plan.allFree]

theorem State.reset_zone (w : Fin 8) : State.reset.zone w = ZoneWindow.reset := by simp [State.zone, State.reset]

theorem State.reset_vessel (w : Fin 4) : State.reset.vessel w = VesselWindow.reset := by simp [State.vessel, State.reset]

theorem State.reset_eventRec (c : EventClass) :
    (State.reset.eventRec c).pending = false ∧ (State.reset.eventRec c).subject = none ∧
      (State.reset.eventRec c).masked = false := by
  cases c <;> exact ⟨rfl, rfl, rfl⟩

theorem State.reset_freeList : State.reset.freeList = List.finRange 2048 := by simp only [State.reset]

theorem State.reset_headTx (h : HeadNum) : State.reset.headTx[h] = [] := by simp [State.reset]

theorem State.reset_headRx (h : HeadNum) : State.reset.headRx[h] = [] := by simp [State.reset]

theorem State.reset_headLines (h : HeadNum) : State.reset.headLines[h] = [] := by simp [State.reset]

theorem State.reset_counted (h : HeadNum) : State.reset.counted[h] = 0 := by simp [State.reset]

theorem State.reset_attn : State.reset.attn = false := rfl

/-- Settles O4: the records by the lemmas above, the other fields by evaluation. -/
theorem resetPinGivesResetValues : Obligations.ResetPinGivesResetValues :=
  ⟨fun _ => ⟨rfl, rfl⟩, fun n => ⟨State.reset_ctx n, State.reset_wait n⟩, rfl, State.reset_freeList, rfl,
    State.reset_chan, fun h => ⟨State.reset_headRec h, fun i => (State.reset_plan h).symm ▸ Plan.allFree_get i⟩,
    State.reset_zone, State.reset_vessel, rfl, rfl, State.reset_attn, State.reset_eventRec, rfl, rfl, rfl, rfl, rfl, rfl,
    State.reset_headTx, rfl, State.reset_headRx, rfl, State.reset_headLines, rfl, State.reset_counted⟩

/-! ## Every law after a reset -/

/-- A property that FREE records of generation 0 lack is counted 0 times. -/
theorem State.reset_count {p : Context → Bool} (h : p (Context.freeIn 0) = false) :
    State.reset.contexts.toList.countP p = 0 := by
  simp only [State.reset, Vector.toList_replicate, List.countP_replicate, h, Bool.false_eq_true, if_false]

theorem State.reset_contexts_lawful : State.reset.ContextsLawful ∧ State.reset.ValuesInRange ∧
    State.reset.EntriesLawful ∧ State.reset.RolesLawful := by
  refine ⟨fun n => ?_, fun n => ?_, fun n => ?_, fun n => ?_⟩ <;> rw [State.reset_ctx]
  · exact Context.freeIn_lawful 0
  · exact Context.freeIn_values 0
  · exact lawfulList_nil
  · exact ⟨nofun, nofun, nofun⟩

theorem State.reset_lists_lawful :
    State.reset.FreeListLawful ∧ State.reset.IdMapLawful ∧ State.reset.DueListLawful := by
  refine ⟨⟨State.reset_freeList ▸ List.nodup_finRange _, fun n => ?_⟩, ⟨List.Pairwise.nil, fun id n => ?_⟩,
    List.nodup_nil, fun n => ?_⟩ <;> rw [State.reset_ctx]
  · exact iff_of_true (State.reset_freeList ▸ List.mem_finRange n) rfl
  · exact iff_of_false nofun fun used => used.1 rfl
  · exact iff_of_false nofun nofun

theorem State.reset_counts_lawful : State.reset.CraneCountLawful ∧ State.reset.LoadsLawful := by
  refine ⟨⟨(State.reset_count rfl).symm, Nat.zero_le _⟩, fun h => ?_⟩
  rw [State.reset_headRec]
  exact (State.reset_count rfl).symm

theorem State.reset_plans_lawful : State.reset.SlotsNamed ∧ State.reset.SlotsCounted := by
  refine ⟨fun h i n => ?_, fun n p part => ?_⟩
  · rw [State.reset_plan, Plan.allFree_get]
    exact ⟨nofun, nofun⟩
  · rw [State.reset_ctx] at part
    cases part

theorem State.reset_channels_lawful : State.reset.ChannelsLawful ∧ State.reset.HoldsLawful := by
  have parkedOn (ch : ChanNum) : (State.reset.chan ch).parkedOn = none := by rw [State.reset_chan]; rfl
  have held (ch : ChanNum) : (State.reset.chan ch).held = none := by rw [State.reset_chan]; rfl
  have holder (n : CtxNum) : (State.reset.ctx n).holder = none := by rw [State.reset_ctx]; rfl
  refine ⟨fun ch => ?_, fun n ch => ?_, fun n _ => holder n, fun n => ?_, fun n ch => ?_, fun n ch parked => ?_⟩
  · rw [State.reset_chan]
    simp [Channel.Lawful, Channel.reset]
  · simp [holder, held]
  · rw [State.reset_wait]
    exact List.nodup_nil
  · simp [State.reset_wait, parkedOn]
  · simp [parkedOn] at parked

/-- Settles O53: every record is at its reset value, and every list is empty or full. -/
theorem resetIsLawful : Obligations.ResetIsLawful := by
  obtain ⟨params, zones, vessels, events, heads⟩ := State.reset_quay_lawful
  obtain ⟨contexts, values, entries, roles⟩ := State.reset_contexts_lawful
  obtain ⟨freeList, idMap, dueList⟩ := State.reset_lists_lawful
  obtain ⟨cranes, loads⟩ := State.reset_counts_lawful
  obtain ⟨named, counted⟩ := State.reset_plans_lawful
  obtain ⟨channels, holds⟩ := State.reset_channels_lawful
  exact ⟨{ params, zones, vessels, events, heads, contexts, values, entries, roles, freeList, idMap, cranes, loads, named,
           counted, channels, holds, dueList }, List.Pairwise.nil⟩

end Sys2Proof.Machine
end

section
/-! The idle step (R161, R174) and the payloads of answers and head messages, field by field (R173, R177, R178). -/

namespace Sys2Proof.Machine

open Sys2Proof

/-! ## The idle step -/

/-- R161, R174: what goes out on a link is the frame of its oldest message. -/
theorem State.transmit_eq (s : State) : s.transmit = { s with
    controlLine := ((s.controlTx.head?).map fun a => frame a.payload).getD []
    controlTx := s.controlTx.tail
    headLines := Vector.ofFn fun h => (((s.headTx[h]).head?).map fun x => frame x.payload).getD []
    headTx := Vector.ofFn fun h => (s.headTx[h]).tail } := by
  ext1
  case controlLine => cases tx : s.controlTx <;> simp [State.transmit, tx]
  case headLines =>
    ext1 h hh
    cases tx : s.headTx[h] <;> simp [State.transmit, tx]
  case headTx => ext1 h hh; simp [State.transmit]
  all_goals rfl

theorem step_of_idle {s : State} (idle : s.pending = []) : step s = .next s.transmit := by
  unfold step
  rw [idle]

/-! ## Optional fields (R173, R177) -/

/-- R173: an absent number is sent as 0. -/
theorem byteOf_optional {k : Nat} (n : Option (Fin k)) :
    byteOf ((n.map (·.val)).getD 0) = (n.map fun n => BitVec.ofNat 8 n.val).getD 0 := by
  cases n <;> rfl

/-- R177, R178: an absent head is sent as 0xFF. -/
theorem headOrNone_eq (h : Option HeadNum) : headOrNone h = (h.map fun h => BitVec.ofNat 8 h.val).getD 0xFF := by
  cases h <;> rfl

theorem classByte_eq (c : Option TermClass) : classByte c = (c.map TermClass.byte).getD 0 := by
  cases c <;> rfl

theorem faultsByte_eq (f : FaultSet) :
    faultsByte f = BitVec.ofNat 8 (maskOf [f.compressor, f.sensor, f.powerOff]) := flags_eq3 ..

theorem indicatorsByte_eq (i : Indicators) :
    indicatorsByte i = BitVec.ofNat 8 (maskOf [i.warm, i.cold, i.rising, i.fault]) := flags_eq4 ..

/-! ## The parts of a payload (R177) -/

theorem Applied.bytes_eq (a : Applied) : a.bytes =
    BitVec.ofNat 8 (maskOf [a.owner.isSome, a.slotCount.isSome, a.period.isSome, a.band.isSome, a.rise.isSome]) ::
      ((a.owner.map bytes32).getD [] ++ (a.slotCount.map fun k => [BitVec.ofNat 8 k]).getD [] ++
        (a.period.map halfBytes).getD [] ++ (a.band.map fun b => [BitVec.ofNat 8 b]).getD [] ++
        (a.rise.map fun b => [BitVec.ofNat 8 b]).getD []) := by
  have owner : optBytes32 a.owner = (a.owner.map bytes32).getD [] := by cases a.owner <;> rfl
  have byte (n : Option Nat) : (n.map byteOf).toList = (n.map fun k => [BitVec.ofNat 8 k]).getD [] := by
    cases n <;> rfl
  rw [Applied.bytes, flags_eq5, owner, byte, byte, byte]
  cases a.period <;> rfl

theorem headBytes_eq (h : HeadNum) (r : Head) : headBytes h r =
    [BitVec.ofNat 8 h.val, r.link.byte, r.admin.byte, r.side.byte,
      BitVec.ofNat 8 (maskOf [r.position.isSome, r.floor.isSome, r.idle.isSome, r.silenceAt.isSome, r.settleAt.isSome,
        r.surveyEnd.isSome])] ++
    bytes16 (r.position.getD 0) ++ halfBytes r.capacity ++ halfBytes r.load ++ [BitVec.ofNat 8 (r.floor.getD 0)] ++
    signedBytes (r.idle.getD 0) ++ [markByte r.resurvey] ++ optTime r.silenceAt ++ optTime r.settleAt ++
    [r.survey.byte] ++ optTime r.surveyEnd ++ wordBytes r.samples ++ wordBytes r.sampleSum ++ [r.outcome.byte] := by
  rw [headBytes, flags_eq6]
  rfl

theorem zoneBytes_eq (w : Fin 8) (z : ZoneWindow) : zoneBytes w z =
    [BitVec.ofNat 8 w.val, markByte z.enabled] ++ bytes16 z.base ++ [BitVec.ofNat 8 z.sizeCode.val] ++
      z.quarters.toList.map fun q => (q.map fun h => BitVec.ofNat 8 h.val).getD 0xFF := by
  rw [zoneBytes, List.map_congr_left fun q _ => headOrNone_eq q]
  rfl

theorem ReadOut.bytes_eq (r : ReadOut) : r.bytes =
    halfBytes r.number.val ++ [BitVec.ofNat 8 r.gen.toNat] ++ bytes16 r.tag ++ [r.state.byte] ++
    bytes64 (r.identity.getD 0) ++ [(r.cls.map TermClass.byte).getD 0] ++ bytes32 r.owner ++ [markByte r.held] ++
    halfBytes (maskOf [r.serving.isSome, r.target.isSome, r.confirmAt.isSome, r.lossAt.isSome, r.orphanAt.isSome,
      r.cause.isSome, r.holder.isSome, (r.crane.bind (·.position)).isSome, (r.reefer.bind (·.due)).isSome,
      (r.reefer.bind (·.lastSeq)).isSome, (r.reefer.bind (·.lastReport)).isSome, (r.reefer.bind (·.supply)).isSome,
      (r.reefer.bind (·.ret)).isSome, (r.reefer.bind (·.setpoint)).isSome, (r.reefer.bind (·.kind)).isSome]) ++
    [(r.serving.map fun h => BitVec.ofNat 8 h.val).getD 0, (r.target.map fun h => BitVec.ofNat 8 h.val).getD 0] ++
    optTime r.confirmAt ++ optTime r.lossAt ++ optTime r.orphanAt ++
    [(r.cause.map SilentCause.byte).getD 0, (r.holder.map fun ch => BitVec.ofNat 8 ch.val).getD 0] ++
    (r.crane.map CranePart.bytes).getD [] ++ (r.reefer.map ReeferPart.bytes).getD [] ++
    (BitVec.ofNat 8 r.entries.length :: r.entries.flatMap EntryOut.bytes) ++
    (BitVec.ofNat 8 r.slots.length :: r.slots.flatMap SlotOut.bytes) := by
  rw [ReadOut.bytes, readOut_mask_eq, classByte_eq, optHeadZero, optHeadZero, byteOf_optional, byteOf_optional,
    byteOf_optional]
  cases r.crane <;> cases r.reefer <;> rfl

theorem BlockEntry.bytes_eq (e : BlockEntry) : e.bytes =
    halfBytes e.number.val ++ bytes16 e.tag ++ [(e.cls.map TermClass.byte).getD 0, e.state.byte] ++
      bytes32 e.owner := by
  rw [BlockEntry.bytes, classByte_eq]
  rfl

/-! ## The payloads of the answers (R177) -/

/-- Equal bytes after the header make equal payloads. -/
theorem Answer.payload_of_bytes {r : Reply} {l : List Byte} (h : r.bytes = l) (ch : ChanNum) (echo : Byte) :
    Answer.payload ⟨ch, echo, r⟩ = BitVec.ofNat 8 ch.val :: echo :: r.code :: l := h ▸ rfl

/-- Settles O2: the idle step sends on every link; the fields by their lemmas, the tables of bytes by evaluation. -/
theorem idleStepSendsTheOldestFrames : Obligations.IdleStepSendsTheOldestFrames := by
  refine ⟨fun s idle => (step_of_idle idle).trans (congrArg _ s.transmit_eq), bytes16_eq, bytes32_eq, bytes64_eq,
    halfBytes_eq, wordBytes_eq, signedBytes_eq, ⟨rfl, rfl⟩, rfl, rfl, rfl, rfl, rfl, rfl, rfl, rfl, rfl, rfl, rfl,
    fun p c d => ⟨by cases p <;> rfl, rfl⟩, fun _ => rfl, faultsByte_eq, indicatorsByte_eq, fun ch echo => ?_, ?_⟩
  · have answer {r : Reply} {l : List Byte} (h : r.bytes = l) := Answer.payload_of_bytes h ch echo
    exact ⟨rfl, fun a => answer a.bytes_eq, fun _ => rfl, fun _ _ _ => rfl,
      fun n tag a => answer (congrArg (halfBytes n.val ++ bytes16 tag ++ ·) a.bytes_eq), fun _ => rfl,
      fun _ _ _ _ => rfl, fun r => answer r.bytes_eq, fun h r => answer (headBytes_eq h r),
      fun w z => answer (zoneBytes_eq w z), fun _ _ => rfl, fun _ _ => rfl,
      fun entries last => answer (congrArg (BitVec.ofNat 8 entries.length :: markByte last :: ·)
        (congrArg entries.flatMap (funext BlockEntry.bytes_eq))),
      fun _ _ => rfl, fun _ _ _ => rfl, fun _ _ _ => rfl, fun _ => rfl⟩
  · exact ⟨fun tag v h => congrArg (fun b => 0x81#8 :: (bytes16 tag ++ [v.byte, b])) (headOrNone_eq h),
      fun _ _ _ => rfl, fun _ _ => ⟨rfl, rfl, rfl⟩, rfl, fun _ => rfl, rfl⟩

end Sys2Proof.Machine
end

section
/-! The operands of the requests: which bytes name a thing (R165, R176, R177). -/

namespace Sys2Proof.Machine

open Sys2Proof

/-! ## Numbers below a bound -/

/-- R176: a number is read as itself below the bound and names nothing from the bound on. -/
theorem boundedNumber_eq_some_iff {bound m : Nat} (i : Fin bound) :
    (if h : m < bound then some (⟨m, h⟩ : Fin bound) else none) = some i ↔ m = i.val := by
  rw [Option.dite_none_right_eq_some]
  constructor
  · rintro ⟨_, same⟩
    exact congrArg Fin.val (Option.some.inj same)
  · rintro rfl
    exact ⟨i.isLt, rfl⟩

theorem ctxOf_eq_some_iff (w : Half) (n : CtxNum) : ctxOf w = some n ↔ w.toNat = n.val := boundedNumber_eq_some_iff n

theorem headOf_eq_some_iff (b : Byte) (h : HeadNum) : headOf b = some h ↔ b.toNat = h.val := boundedNumber_eq_some_iff h

theorem zoneOf_eq_some_iff (b : Byte) (w : Fin 8) : zoneOf b = some w ↔ b.toNat = w.val := boundedNumber_eq_some_iff w

theorem vesselOf_eq_some_iff (b : Byte) (w : Fin 4) : vesselOf b = some w ↔ b.toNat = w.val :=
  boundedNumber_eq_some_iff w

/-- R177: 0xFF chooses no head, and no head has that number. -/
theorem headChoiceOf_eq_some_iff (b : Byte) (h : Option HeadNum) :
    headChoiceOf b = some h ↔ (b = 0xFF ∧ h = none) ∨ ∃ k, h = some k ∧ b.toNat = k.val := by
  unfold headChoiceOf
  split
  · next none_byte =>
    have unnumbered (k : HeadNum) : b.toNat ≠ k.val := by
      subst none_byte
      exact fun same => absurd k.isLt (by rw [← same]; decide)
    constructor
    · exact fun read => .inl ⟨none_byte, (Option.some.inj read).symm⟩
    · rintro (⟨-, rfl⟩ | ⟨k, -, same⟩)
      · rfl
      · exact absurd same (unnumbered k)
  · next other =>
    simp only [Option.map_eq_some_iff, headOf_eq_some_iff, other, false_and, false_or]
    exact exists_congr fun k => and_comm.trans (and_congr_left fun _ => eq_comm)

/-! ## Enumerated bytes -/

theorem sideOf_eq_some_iff (b : Byte) (c : Side) : sideOf b = some c ↔ b = c.byte := by
  constructor
  · intro h
    unfold sideOf at h
    split at h
    · next n => cases h; exact BitVec.eq_of_toNat_eq n
    · next n => cases h; exact BitVec.eq_of_toNat_eq n
    · next n => cases h; exact BitVec.eq_of_toNat_eq n
    · cases h
  · rintro rfl
    cases c <;> rfl

theorem markOf_eq_some_iff (b : Byte) (m : Bool) : markOf b = some m ↔ b = if m then 1 else 0 := by
  constructor
  · intro h
    unfold markOf at h
    split at h
    · next n => cases h; exact BitVec.eq_of_toNat_eq n
    · next n => cases h; exact BitVec.eq_of_toNat_eq n
    · cases h
  · rintro rfl
    exact markOf_mark m

/-- R165: a byte up to 8 is the number of some class, and that class is the one read. -/
theorem eventOf_eq_some_iff (b : Byte) (c : EventClass) : eventOf b = some c ↔ b.toNat = c.num.val := by
  refine ⟨fun read => ?_, eventOf_num⟩
  have small : b.toNat < 9 := Nat.lt_of_not_le fun large =>
    nomatch (eventOf_eq_none large).symm.trans read
  obtain ⟨d, numbered⟩ := EventClass.exists_num ⟨b.toNat, small⟩
  have named : b.toNat = d.num.val := (congrArg Fin.val numbered).symm
  obtain rfl : d = c := Option.some.inj ((eventOf_num named).symm.trans read)
  exact named

/-- Settles O24: one equivalence for each reader; the class and side bytes of R177 are written out case by case. -/
theorem bytesNameThings : Obligations.BytesNameThings :=
  ⟨ctxOf_eq_some_iff, headOf_eq_some_iff, headChoiceOf_eq_some_iff,
    fun b c => (classOf_eq_some_iff b c).trans (by cases c <;> rfl),
    fun b c => (sideOf_eq_some_iff b c).trans (by cases c <;> rfl),
    markOf_eq_some_iff, zoneOf_eq_some_iff, vesselOf_eq_some_iff, eventOf_eq_some_iff, rfl⟩

end Sys2Proof.Machine
end

section
/-! A step with a command waiting: the tie between `step` and `exec`. The step with none waiting is `step_of_idle`. -/

namespace Sys2Proof.Machine

open Sys2Proof

/-- Settles O1: of the two branches of `step`, a queue with a front command selects the one that carries it out. -/
theorem stepTakesTheFrontCommand : Obligations.StepTakesTheFrontCommand := by
  intro c rest s front
  unfold step
  rw [front]

end Sys2Proof.Machine
end
